-- ==== Sys2Proof/Word.lean ====
section
/-! DEFINITION. The two widths of the M6800: the byte (one bus transfer, an accumulator) and the 16-bit word (an
address, X, SP, PC). Spec: 00_scope.md R5, 20_memory.md R50. -/

namespace Sys2Proof

/-- The addressable unit, the width of A, B and of every bus transfer (00_scope.md R5). -/
abbrev Byte := BitVec 8

/-- An address, and the width of X, SP and PC (00_scope.md R5). -/
abbrev Word := BitVec 16

end Sys2Proof
end

