-- ==== Sys2Proof/Config.lean ====
section
/-! DEFINITION. What the spec leaves to the platform or to the run (92_eei_decisions.md, "Open parameters at a
glance"), and the free values: constants with no body, so that no proof can rest on what they are. -/

namespace Sys2Proof

/-- What stands at an address (20_memory.md R57, R67; 92_eei_decisions.md D5). -/
inductive RegionKind where
  /-- Reads give the byte held, writes change it. -/
  | ram
  /-- Reads give the byte held, writes are discarded. -/
  | rom
  /-- A memory-mapped device: reads give whatever the device answers, writes go to the device. -/
  | device
  /-- Nothing answers: a read is unspecified each time, a write is discarded. -/
  | empty
  deriving DecidableEq, Repr

/-- One entry of the memory map: the addresses from `first` to `last`, both inclusive. -/
structure Region where
  first : Word
  last : Word
  kind : RegionKind
  deriving DecidableEq, Repr

/-- `UNASSIGNED_OPCODE` has one specified value (92_eei_decisions.md D9). -/
inductive UnassignedPolicy where
  | fault
  deriving DecidableEq, Repr

/-- The open parameters, fixed for a run (00_scope.md R5, 60_exceptions.md R285). DESIGN CHOICE, log entry 4: they
are a field of the state that no step writes, so a statement about every state holds for all their values. -/
structure Params where
  /-- `MEMORY_MAP` (D5). The first region that holds an address decides; an address in none is RAM. -/
  memoryMap : List Region
  /-- `SWI_VECTOR` (D3). -/
  swiVector : Word
  /-- `CPX_HIGH_BORROW` (D7). -/
  cpxHighBorrow : Bool
  /-- `I_CLEAR_DELAY` (D12); true stands for 1. -/
  iClearDelay : Bool
  /-- `UNASSIGNED_OPCODE` (D9). -/
  unassignedOpcode : UnassignedPolicy
  /-- `STOP_ADDRESS` (D22). -/
  stopAddress : Option Word
  /-- `StopOnSWI` (D22). -/
  stopOnSwi : Bool
  deriving DecidableEq, Repr

/-- FREE VALUE: the byte that the `k`-th unspecified read gives: an empty address (93_implementation_defined.md U5)
or a device's answer (20_memory.md R60 item 2). Log entries 6 and 7. -/
opaque Config.freeByte : Nat → Byte

/-- FREE VALUE: the bit that the `k`-th draw gives: V after DAA (93_implementation_defined.md U2). Log entry 8. -/
opaque Config.freeBit : Nat → Bool

end Sys2Proof
end

