-- ==== Sys2Proof/Machine/Bits.lean ====
section
/-! DEFINITION. Halves of a word, concatenation and extension: the notation of 00_scope.md R7. -/

namespace Sys2Proof.Machine

/-- `hi8(v)`: bits 15 to 8. -/
def hi8 (v : Word) : Byte := v.extractLsb' 8 8

/-- `lo8(v)`: bits 7 to 0. -/
def lo8 (v : Word) : Byte := v.extractLsb' 0 8

/-- `h ++ l`: the high byte stands first, in data, instructions and vectors alike (20_memory.md R52, R53). -/
def wordOf (h l : Byte) : Word := h ++ l

/-- `zext_16`. -/
def zext16 (v : Byte) : Word := v.setWidth 16

/-- `sext_16`. -/
def sext16 (v : Byte) : Word := v.signExtend 16

end Sys2Proof.Machine
end

