-- ==== Sys2Proof/Machine/Memory.lean ====
section
/-! DEFINITION. Memory as plain data: a list of (address, byte) pairs in one canonical form (20_memory.md R50, R52;
10_state.md R35). -/

namespace Sys2Proof.Machine

/-- The bytes that differ from `unlistedByte`, sorted by address. -/
abbrev Memory := List Host.Cell

/-- DESIGN CHOICE, unsafe, log entry 1: what an address that no entry lists reads as. The spec fixes no contents
(20_memory.md R67, 93_implementation_defined.md U4). -/
def unlistedByte : Byte := 0x00

/-- The byte held at address `a`. -/
def Memory.get (m : Memory) (a : Nat) : Byte :=
  match m with
  | [] => unlistedByte
  | (k, v) :: rest => if k = a then v else Memory.get rest a

/-- The memory without an entry for address `a`. -/
def Memory.unlist (m : Memory) (a : Nat) : Memory :=
  match m with
  | [] => []
  | (k, v) :: rest => if k = a then Memory.unlist rest a else (k, v) :: Memory.unlist rest a

/-- Places an entry before the first entry of a higher address. -/
def Memory.place (m : Memory) (a : Nat) (v : Byte) : Memory :=
  match m with
  | [] => [(a, v)]
  | (k, w) :: rest => if a < k then (a, v) :: (k, w) :: rest else (k, w) :: Memory.place rest a v

/-- The memory with `v` at address `a` and every other address as before. Writing what an unlisted address reads as
removes the entry. -/
def Memory.set (m : Memory) (a : Nat) (v : Byte) : Memory :=
  if v = unlistedByte then Memory.unlist m a else Memory.place (Memory.unlist m a) a v

/-- Entries from `lo` on: addresses strictly rising and inside the 64 kB space, no entry equal to what an unlisted
address reads as. -/
def Memory.wfFrom (lo : Nat) (m : Memory) : Bool :=
  match m with
  | [] => true
  | (k, v) :: rest => decide (lo ≤ k) && decide (k < 65536) && decide (v ≠ unlistedByte) && Memory.wfFrom (k + 1) rest

/-- The canonical form. -/
def Memory.wf (m : Memory) : Bool := Memory.wfFrom 0 m

/-- The 16-bit datum at `a`: its high byte at `a`, its low byte at `a + 1` mod 2^16 (20_memory.md R52, R56). -/
def Memory.word (m : Memory) (a : Word) : Word := wordOf (Memory.get m a.toNat) (Memory.get m (a + 1).toNat)

end Sys2Proof.Machine
end

