-- ==== Sys2Proof/Machine/Defaults.lean ====
section
/-! DEFINITION. The values that State.reset takes: the spec's defaults of the open parameters, and the values this
model names where the spec gives a register none. -/

namespace Sys2Proof.Machine

/-- The defaults of 92_eei_decisions.md, "Open parameters at a glance": all 64 kB RAM, SWI_VECTOR = FFFAh,
CPX_HIGH_BORROW false, I_CLEAR_DELAY 0, UNASSIGNED_OPCODE fault, no stop convention. -/
def defaultParams : Params where
  memoryMap := []
  swiVector := 0xFFFA
  cpxHighBorrow := false
  iClearDelay := false
  unassignedOpcode := .fault
  stopAddress := none
  stopOnSwi := false

/-- DESIGN CHOICE, unsafe, log entry 2: A and B at reset, which the spec leaves unspecified (10_state.md R36). -/
def resetAccumulator : Byte := 0x00

/-- DESIGN CHOICE, unsafe, log entry 2: X at reset, which the spec leaves unspecified (10_state.md R36). -/
def resetIndex : Word := 0x0000

/-- DESIGN CHOICE, unsafe, log entry 2: SP at reset, which the spec leaves unspecified (10_state.md R36). -/
def resetStackPointer : Word := 0x0000

/-- DESIGN CHOICE, unsafe, log entry 2: H, N, Z, V and C at reset, which the spec leaves unspecified
(10_state.md R36). -/
def resetFlag : Bool := false

/-- Where the RESET vector lies: high byte at FFFEh, low byte at FFFFh (60_exceptions.md R263). -/
def resetVector : Word := 0xFFFE

/-- Where the NMI vector lies (60_exceptions.md R263). -/
def nmiVector : Word := 0xFFFC

/-- Where the IRQ vector lies (60_exceptions.md R263). -/
def irqVector : Word := 0xFFF8

end Sys2Proof.Machine
end

