-- ==== Sys2Proof/Machine/State.lean ====
section
/-! DEFINITION. The state of the machine, the reasons a step stops, and the state right after reset. -/

namespace Sys2Proof.Machine

/-- The six condition flags, each 1 bit; CCR bits 7 and 6 always read 1 and are not state (10_state.md R25). -/
structure Flags where
  /-- Bit 5, half carry (R26). -/
  h : Bool
  /-- Bit 4, interrupt mask (R27). -/
  i : Bool
  /-- Bit 3, negative (R28). -/
  n : Bool
  /-- Bit 2, zero (R29). -/
  z : Bool
  /-- Bit 1, overflow (R30). -/
  v : Bool
  /-- Bit 0, carry (R31). -/
  c : Bool
  deriving DecidableEq, Repr

/-- One transfer on the 8-bit data bus (20_memory.md R55, 60_exceptions.md R285). -/
inductive BusAccess where
  | read (addr : Word) (value : Byte)
  | write (addr : Word) (value : Byte)
  deriving DecidableEq, Repr

/-- Why a step stops. The processor itself has no fault (60_exceptions.md R261): these are the model's. -/
inductive Fault where
  /-- Raised by the meaning of `unassigned`: the byte at `addr` is one of the 59 codes no source defines; all state is
  as before the fetch (60_exceptions.md R277). Safe: nothing is claimed of what the part does. -/
  | unassignedOpcode (op : Byte) (addr : Word)
  /-- Raised at an instruction boundary when `pc` is the host's STOP_ADDRESS and the byte there is no unassigned code
  (70_reset_and_hazards.md R311). Safe: a convention of the run, all state as before the fetch. -/
  | stopAt (addr : Word)
  /-- Raised at an instruction boundary when the host chose StopOnSWI and the byte at `addr` is 3Fh
  (70_reset_and_hazards.md R311). Safe: a convention of the run, nothing stacked. -/
  | stopOnSwi (addr : Word)
  deriving DecidableEq, Repr

/-- Why an instruction is refused. -/
inductive Refusal where
  /-- Raised by an arm of `exec` whose instruction has no meaning yet; no arm of this model does. Safe. -/
  | notModelled (mnemonic : String)
  deriving DecidableEq, Repr

/-- Everything the spec gives the machine, the inputs it samples and the outputs it reports. -/
structure State where
  /-- Accumulator A (10_state.md R21). -/
  a : Byte
  /-- Accumulator B (10_state.md R21). -/
  b : Byte
  /-- Index register X (10_state.md R22). -/
  x : Word
  /-- Stack pointer: the address of the next free stack byte (10_state.md R23). -/
  sp : Word
  /-- Program counter (10_state.md R24). -/
  pc : Word
  /-- The condition flags H, I, N, Z, V, C (10_state.md R25). -/
  cc : Flags
  /-- WAI has stacked the registers and waits for an interrupt (10_state.md R34). -/
  waiting : Bool
  /-- An NMI request not yet answered (10_state.md R34, 60_exceptions.md R268). -/
  nmiPending : Bool
  /-- The next boundary skips IRQ; used only when I_CLEAR_DELAY is 1 (10_state.md R34, 46_ccr.md R251). -/
  irqHoldoff : Bool
  /-- Input: HALT is active (60_exceptions.md R262, R281). -/
  halted : Bool
  /-- Input: IRQ is low, requesting (60_exceptions.md R262, R267). -/
  irqLow : Bool
  /-- Input: RESET is active (60_exceptions.md R262, R276). -/
  resetActive : Bool
  /-- The bytes of the one 64 kB space (10_state.md R35). -/
  mem : Memory
  /-- The open parameters of the run; no step writes them (60_exceptions.md R285). -/
  params : Params
  /-- Output: the accesses of the last step, in order (60_exceptions.md R285, 20_memory.md R65). -/
  bus : List BusAccess
  /-- Output, for reporting only: machine cycles counted (70_reset_and_hazards.md R308). -/
  cycles : Nat
  /-- The model's own: how many free values have been drawn (log entry 8). -/
  draws : Nat
  deriving DecidableEq, Repr

/-! One update per field. -/

/-- The state with `a` replaced. -/
def State.setA (s : State) (v : Byte) : State := { s with a := v }

/-- The state with `b` replaced. -/
def State.setB (s : State) (v : Byte) : State := { s with b := v }

/-- The state with `x` replaced. -/
def State.setX (s : State) (v : Word) : State := { s with x := v }

/-- The state with `sp` replaced. -/
def State.setSp (s : State) (v : Word) : State := { s with sp := v }

/-- The state with `pc` replaced. -/
def State.setPc (s : State) (v : Word) : State := { s with pc := v }

/-- The state with `cc` replaced. -/
def State.setCc (s : State) (v : Flags) : State := { s with cc := v }

/-- The state with `waiting` replaced. -/
def State.setWaiting (s : State) (v : Bool) : State := { s with waiting := v }

/-- The state with `nmiPending` replaced. -/
def State.setNmiPending (s : State) (v : Bool) : State := { s with nmiPending := v }

/-- The state with `irqHoldoff` replaced. -/
def State.setIrqHoldoff (s : State) (v : Bool) : State := { s with irqHoldoff := v }

/-- The state with `halted` replaced. -/
def State.setHalted (s : State) (v : Bool) : State := { s with halted := v }

/-- The state with `irqLow` replaced. -/
def State.setIrqLow (s : State) (v : Bool) : State := { s with irqLow := v }

/-- The state with `resetActive` replaced. -/
def State.setResetActive (s : State) (v : Bool) : State := { s with resetActive := v }

/-- The state with `mem` replaced. -/
def State.setMem (s : State) (v : Memory) : State := { s with mem := v }

/-- The state with `params` replaced. -/
def State.setParams (s : State) (v : Params) : State := { s with params := v }

/-- The state with `bus` replaced. -/
def State.setBus (s : State) (v : List BusAccess) : State := { s with bus := v }

/-- The state with `cycles` replaced. -/
def State.setCycles (s : State) (v : Nat) : State := { s with cycles := v }

/-- The state with `draws` replaced. -/
def State.setDraws (s : State) (v : Nat) : State := { s with draws := v }

/-- The machine right after reset (10_state.md R36, 70_reset_and_hazards.md R300): I is 1, PC is the word at FFFEh, the
hidden latches are false; every other register holds a value this model names (log entries 1, 2, 3). -/
def State.reset : State where
  a := resetAccumulator
  b := resetAccumulator
  x := resetIndex
  sp := resetStackPointer
  pc := Memory.word [] resetVector
  cc := { h := resetFlag, i := true, n := resetFlag, z := resetFlag, v := resetFlag, c := resetFlag }
  waiting := false
  nmiPending := false
  irqHoldoff := false
  halted := false
  irqLow := false
  resetActive := false
  mem := []
  params := defaultParams
  bus := []
  cycles := 0
  draws := 0

end Sys2Proof.Machine
end

