-- ==== Sys2Proof/Machine/Flags.lean ====
section
/-! DEFINITION. The condition code register as a byte, and every computation of a result together with the flags its
rule writes. A flag an operation does not name keeps its value (10_state.md R32). -/

namespace Sys2Proof.Machine

/-! ### The register as a byte -/

/-- CCR: 1 1 H I N Z V C (00_scope.md R7, 10_state.md R25). -/
def Flags.toByte (f : Flags) : Byte :=
  0b11#2 ++ BitVec.ofBool f.h ++ BitVec.ofBool f.i ++ BitVec.ofBool f.n ++ BitVec.ofBool f.z ++ BitVec.ofBool f.v ++
    BitVec.ofBool f.c

/-- The flags a byte loads: bits 5 to 0; bits 7 and 6 are ignored (10_state.md R25). -/
def Flags.ofByte (v : Byte) : Flags where
  h := v.getLsbD 5
  i := v.getLsbD 4
  n := v.getLsbD 3
  z := v.getLsbD 2
  v := v.getLsbD 1
  c := v.getLsbD 0

/-! ### N and Z of a result (00_scope.md R8: NZ8, NZ16) -/

/-- N and Z from an 8-bit result. -/
def Flags.nz8 (f : Flags) (r : Byte) : Flags := { f with n := r.getLsbD 7, z := decide (r = 0) }

/-- N and Z from a 16-bit result. -/
def Flags.nz16 (f : Flags) (r : Word) : Flags := { f with n := r.getLsbD 15, z := decide (r = 0) }

/-- N and Z from an 8-bit value that is moved or computed bitwise, V cleared (42_acc_mem_logic_shift.md R160,
43_acc_mem_move.md R180). -/
def Flags.move8 (f : Flags) (r : Byte) : Flags := { f.nz8 r with v := false }

/-- N and Z from a 16-bit value that is moved, V cleared (44_index_stack.md R195). -/
def Flags.move16 (f : Flags) (r : Word) : Flags := { f.nz16 r with v := false }

/-! ### Addition and subtraction (00_scope.md R8: ADD8, SUB8) -/

/-- The exact sum, before it is narrowed. -/
def addSum (a m : Byte) (cin : Bool) : Nat := a.toNat + m.toNat + cin.toNat

/-- ADD8: the sum and H, N, Z, V, C. -/
def add8 (a m : Byte) (cin : Bool) (f : Flags) : Byte × Flags :=
  let r : Byte := BitVec.ofNat 8 (addSum a m cin)
  (r, { f.nz8 r with
        h := decide (16 ≤ a.toNat % 16 + m.toNat % 16 + cin.toNat)
        v := (a.getLsbD 7 && m.getLsbD 7 && !r.getLsbD 7) || (!a.getLsbD 7 && !m.getLsbD 7 && r.getLsbD 7)
        c := decide (256 ≤ addSum a m cin) })

/-- The exact difference, before it is narrowed. -/
def subDiff (a m : Byte) (bin : Bool) : Int := (a.toNat : Int) - (m.toNat : Int) - (bin.toNat : Int)

/-- SUB8: the difference and N, Z, V, C; C is the borrow. -/
def sub8 (a m : Byte) (bin : Bool) (f : Flags) : Byte × Flags :=
  let r : Byte := BitVec.ofInt 8 (subDiff a m bin)
  (r, { f.nz8 r with
        v := (a.getLsbD 7 && !m.getLsbD 7 && !r.getLsbD 7) || (!a.getLsbD 7 && m.getLsbD 7 && r.getLsbD 7)
        c := decide (subDiff a m bin < 0) })

/-! ### Dual-operand operations: accumulator, operand, flags before -/

/-- ADD (41_acc_mem_arith.md R130). -/
def opAdd (a m : Byte) (f : Flags) : Byte × Flags := add8 a m false f

/-- ADC (R131). -/
def opAdc (a m : Byte) (f : Flags) : Byte × Flags := add8 a m f.c f

/-- SUB (R133). -/
def opSub (a m : Byte) (f : Flags) : Byte × Flags := sub8 a m false f

/-- SBC (R134). -/
def opSbc (a m : Byte) (f : Flags) : Byte × Flags := sub8 a m f.c f

/-- AND (42_acc_mem_logic_shift.md R160). -/
def opAnd (a m : Byte) (f : Flags) : Byte × Flags := (a &&& m, f.move8 (a &&& m))

/-- EOR (R162). -/
def opEor (a m : Byte) (f : Flags) : Byte × Flags := (a ^^^ m, f.move8 (a ^^^ m))

/-- ORA (R163). -/
def opOra (a m : Byte) (f : Flags) : Byte × Flags := (a ||| m, f.move8 (a ||| m))

/-- LDA: the operand replaces the accumulator (43_acc_mem_move.md R180). -/
def opLda (_a m : Byte) (f : Flags) : Byte × Flags := (m, f.move8 m)

/-! ### Single-operand operations: operand, flags before -/

/-- NEG (41_acc_mem_arith.md R138). -/
def opNeg (m : Byte) (f : Flags) : Byte × Flags :=
  let r : Byte := 0 - m
  (r, { f.nz8 r with v := decide (r = 0x80), c := decide (r ≠ 0) })

/-- COM (42_acc_mem_logic_shift.md R164). -/
def opCom (m : Byte) (f : Flags) : Byte × Flags :=
  let r : Byte := m ^^^ 0xFF
  (r, { f.move8 r with c := true })

/-- INC: C is not written (41_acc_mem_arith.md R140). -/
def opInc (m : Byte) (f : Flags) : Byte × Flags :=
  let r : Byte := m + 1
  (r, { f.nz8 r with v := decide (m = 0x7F) })

/-- DEC: C is not written (R141). -/
def opDec (m : Byte) (f : Flags) : Byte × Flags :=
  let r : Byte := m - 1
  (r, { f.nz8 r with v := decide (m = 0x80) })

/-- CLR (R142). -/
def opClr (f : Flags) : Byte × Flags := (0, { f with n := false, z := true, v := false, c := false })

/-- TST writes flags only (R143). -/
def flagsTst (m : Byte) (f : Flags) : Flags := { f.move8 m with c := false }

/-- The flags of a shift or rotate with result `r` and `c` shifted out: V is N xor C after the shift, note 6 as
42_acc_mem_logic_shift.md R165 reads it (90_conflicts.md C11). -/
def flagsShift (r : Byte) (c : Bool) (f : Flags) : Flags :=
  { f.nz8 r with v := r.getLsbD 7 ^^ c, c := c }

/-- ROL: old C enters bit 0 (R165). -/
def opRol (m : Byte) (f : Flags) : Byte × Flags :=
  let r : Byte := m.extractLsb' 0 7 ++ BitVec.ofBool f.c
  (r, flagsShift r (m.getLsbD 7) f)

/-- ROR: old C enters bit 7 (R166). -/
def opRor (m : Byte) (f : Flags) : Byte × Flags :=
  let r : Byte := BitVec.ofBool f.c ++ m.extractLsb' 1 7
  (r, flagsShift r (m.getLsbD 0) f)

/-- ASL: 0 enters bit 0 (R167). -/
def opAsl (m : Byte) (f : Flags) : Byte × Flags :=
  let r : Byte := m.extractLsb' 0 7 ++ 0#1
  (r, flagsShift r (m.getLsbD 7) f)

/-- ASR: bit 7 keeps its value (R168). -/
def opAsr (m : Byte) (f : Flags) : Byte × Flags :=
  let r : Byte := BitVec.ofBool (m.getLsbD 7) ++ m.extractLsb' 1 7
  (r, flagsShift r (m.getLsbD 0) f)

/-- LSR: 0 enters bit 7, so N is 0 (R169). -/
def opLsr (m : Byte) (f : Flags) : Byte × Flags :=
  let r : Byte := 0#1 ++ m.extractLsb' 1 7
  (r, flagsShift r (m.getLsbD 0) f)

/-! ### Decimal adjust and CPX -/

/-- DAA: the correction added to A (41_acc_mem_arith.md R139). -/
def daaCorrection (a : Byte) (f : Flags) : Byte :=
  let lo := a.toNat % 16
  let hi := a.toNat / 16
  (if lo > 9 ∨ f.h = true then 0x06 else 0x00) |||
    (if hi > 9 ∨ f.c = true ∨ (hi > 8 ∧ lo > 9) then 0x60 else 0x00)

/-- DAA: the result and the flags; `v` is the free value that V takes. C is set or left, never cleared (R139). -/
def opDaa (a : Byte) (v : Bool) (f : Flags) : Byte × Flags :=
  let cf := daaCorrection a f
  let r : Byte := a + cf
  (r, { f.nz8 r with v := v, c := f.c || decide (cf &&& 0x60 ≠ 0) })

/-- CPX: Z, N and V; C is not written. `highBorrow` is CPX_HIGH_BORROW: whether the borrow of the low bytes enters the
subtraction of the high bytes (44_index_stack.md R190). -/
def flagsCpx (x m : Word) (highBorrow : Bool) (f : Flags) : Flags :=
  let b : Byte := if highBorrow = true ∧ (lo8 x).toNat < (lo8 m).toNat then 1 else 0
  let rh : Byte := hi8 x - hi8 m - b
  { f with
    z := decide (x = m)
    n := rh.getLsbD 7
    v := ((hi8 x).getLsbD 7 ^^ (hi8 m).getLsbD 7) && ((hi8 x).getLsbD 7 ^^ rh.getLsbD 7) }

end Sys2Proof.Machine
end

