-- ==== Sys2Proof/Machine/Ops.lean ====
section
/-! DEFINITION. The named operations over registers, memory and the stack; taking an exception and returning from
one; the reset sequence. -/

namespace Sys2Proof.Machine

/-! ### Accumulators -/

/-- Which accumulator an instruction names. -/
inductive Acc where
  | a | b
  deriving DecidableEq, Repr

/-- Read of an accumulator. -/
def State.acc (s : State) (r : Acc) : Byte :=
  match r with
  | .a => s.a
  | .b => s.b

/-- Write of an accumulator. -/
def State.setAcc (s : State) (r : Acc) (v : Byte) : State :=
  match r with
  | .a => s.setA v
  | .b => s.setB v

/-! ### Memory -/

/-- What a memory map has at address `a`: the first region that holds it decides, an address in none is RAM
(92_eei_decisions.md D5; log entry 5). -/
def regionKindAt (map : List Region) (a : Word) : RegionKind :=
  match map with
  | [] => .ram
  | r :: rest =>
    if r.first.toNat ≤ a.toNat ∧ a.toNat ≤ r.last.toNat then r.kind else regionKindAt rest a

/-- What stands at address `a` in this run. -/
def State.kindAt (s : State) (a : Word) : RegionKind := regionKindAt s.params.memoryMap a

/-- The byte memory holds at `a`, looked at from outside: no access is made. -/
def State.peek (s : State) (a : Word) : Byte := Memory.get s.mem a.toNat

/-- Appends an access to the record of the present step. -/
def State.logAccess (s : State) (x : BusAccess) : State := s.setBus (s.bus ++ [x])

/-- `MemRead(a, 1)` (00_scope.md R7, 20_memory.md R60, R67): the byte held in RAM or ROM; a free value, drawn afresh,
where a device answers or nothing does (log entries 6, 7). -/
def read8 (a : Word) (s : State) : Byte × State :=
  match s.kindAt a with
  | .ram | .rom => (s.peek a, s.logAccess (.read a (s.peek a)))
  | .device | .empty =>
    (Config.freeByte s.draws, (s.setDraws (s.draws + 1)).logAccess (.read a (Config.freeByte s.draws)))

/-- `MemWrite(a, 1, v)`: RAM takes the byte; ROM and empty addresses discard it; a device receives it over the bus
(20_memory.md R57, R67, 93_implementation_defined.md U6). -/
def write8 (a : Word) (v : Byte) (s : State) : State :=
  match s.kindAt a with
  | .ram => (s.setMem (Memory.set s.mem a.toNat v)).logAccess (.write a v)
  | .rom | .device | .empty => s.logAccess (.write a v)

/-- `MemRead(a, 2)`: the high byte at `a`, then the low byte at `a + 1` mod 2^16 (20_memory.md R52, R55, R56). -/
def read16 (a : Word) (s : State) : Word × State :=
  let h := read8 a s
  let l := read8 (a + 1) h.2
  (wordOf h.1 l.1, l.2)

/-- `MemWrite(a, 2, v)`: the high byte at `a`, then the low byte at `a + 1` mod 2^16 (20_memory.md R52, R55, R56). -/
def write16 (a : Word) (v : Word) (s : State) : State := write8 (a + 1) (lo8 v) (write8 a (hi8 v) s)

/-! ### The stack -/

/-- `Push8(v)` (20_memory.md R58). -/
def push8 (v : Byte) (s : State) : State := (write8 s.sp v s).setSp (s.sp - 1)

/-- `Pull8()` (20_memory.md R58). -/
def pull8 (s : State) : Byte × State := read8 (s.sp + 1) (s.setSp (s.sp + 1))

/-- `Push16(v)`: the low byte first (20_memory.md R59). -/
def push16 (v : Word) (s : State) : State := push8 (hi8 v) (push8 (lo8 v) s)

/-- `Pull16()`: the high byte first (20_memory.md R59). -/
def pull16 (s : State) : Word × State :=
  let h := pull8 s
  let l := pull8 h.2
  (wordOf h.1 l.1, l.2)

/-! ### Taking an exception, and returning from one -/

/-- `StackAll()`: PCL, PCH, XL, XH, A, B, CCR (60_exceptions.md R264). -/
def stackAll (s : State) : State :=
  push8 s.cc.toByte (push8 s.b (push8 s.a (push16 s.x (push16 s.pc s))))

/-- Sets I and loads PC from a vector: the second half of every entry (60_exceptions.md R264, 45_branch_jump.md R231). -/
def enterThrough (vector : Word) (s : State) : State :=
  let p := read16 vector (s.setCc { s.cc with i := true })
  p.2.setPc p.1

/-- `InterruptEntry(vector)`: the registers are stacked unless WAI has already done so (60_exceptions.md R264, R273). -/
def interruptEntry (vector : Word) (s : State) : State :=
  enterThrough vector (if s.waiting = true then s.setWaiting false else stackAll s)

/-- The return that RTI makes: CCR, B, A, X, PC are pulled (45_branch_jump.md R229). -/
def returnFromInterrupt (s : State) : State :=
  let c := pull8 s
  let b := pull8 (c.2.setCc (Flags.ofByte c.1))
  let a := pull8 (b.2.setB b.1)
  let x := pull16 (a.2.setA a.1)
  let p := pull16 (x.2.setX x.1)
  p.2.setPc p.1

/-- `Reset()` (70_reset_and_hazards.md R300): what it does not write, it leaves (log entry 13). -/
def resetSequence (s : State) : State :=
  let s' := (((s.setCc { s.cc with i := true }).setWaiting false).setNmiPending false).setIrqHoldoff false
  let p := read16 resetVector s'
  p.2.setPc p.1

end Sys2Proof.Machine
end

