-- ==== Sys2Proof/Syntax.lean ====
section
/-! DEFINITION. The instructions as syntax: one constructor per mnemonic of spec/opcode_table.json, the addressing
mode an operand whose type admits exactly the modes the table gives that mnemonic (30_encoding.md R81, R84). -/

namespace Sys2Proof

/-- A memory operand of an instruction that has the direct, indexed and extended forms (40_addressing_modes.md R115
to R117). -/
inductive Addr where
  /-- DIR: the address byte, page 0. -/
  | dir (addr8 : Byte)
  /-- IDX: the unsigned offset added to X. -/
  | idx (off8 : Byte)
  /-- EXT: the 16-bit address, its high byte first in the instruction. -/
  | ext (addr : Word)
  deriving DecidableEq, Repr

/-- A memory operand of an instruction that has only the indexed and extended forms. -/
inductive AddrX where
  /-- IDX. -/
  | idx (off8 : Byte)
  /-- EXT. -/
  | ext (addr : Word)
  deriving DecidableEq, Repr

/-- The 8-bit second operand of a dual-operand instruction (40_addressing_modes.md R111, R114). -/
inductive Src8 where
  /-- IMM8: the operand is in the instruction. -/
  | imm (value : Byte)
  /-- DIR, IDX or EXT: the operand is the byte at the effective address. -/
  | mem (m : Addr)
  deriving DecidableEq, Repr

/-- The 16-bit operand of CPX, LDS and LDX (40_addressing_modes.md R114). -/
inductive Src16 where
  /-- IMM16: the operand is in the instruction, high byte first. -/
  | imm (value : Word)
  /-- DIR, IDX or EXT: the high byte at the effective address, the low byte at the next. -/
  | mem (m : Addr)
  deriving DecidableEq, Repr

/-- An instruction of the M6800 (30_encoding.md R84, R87), in the order of the opcode table. -/
inductive Instr where
  /-- NOP: 45_branch_jump.md R228. -/
  | nop
  /-- TAP: 46_ccr.md R256. -/
  | tap
  /-- TPA: 46_ccr.md R257. -/
  | tpa
  /-- INX: 44_index_stack.md R193. -/
  | inx
  /-- DEX: 44_index_stack.md R191. -/
  | dex
  /-- CLV: 46_ccr.md R252. -/
  | clv
  /-- SEV: 46_ccr.md R255. -/
  | sev
  /-- CLC: 46_ccr.md R250. -/
  | clc
  /-- SEC: 46_ccr.md R253. -/
  | sec
  /-- CLI: 46_ccr.md R251. -/
  | cli
  /-- SEI: 46_ccr.md R254. -/
  | sei
  /-- SBA: 41_acc_mem_arith.md R135. -/
  | sba
  /-- CBA: 41_acc_mem_arith.md R137. -/
  | cba
  /-- TAB: 43_acc_mem_move.md R184. -/
  | tab
  /-- TBA: 43_acc_mem_move.md R185. -/
  | tba
  /-- DAA: 41_acc_mem_arith.md R139. -/
  | daa
  /-- ABA: 41_acc_mem_arith.md R132. -/
  | aba
  /-- BRA: 45_branch_jump.md R210. -/
  | bra (rel : Byte)
  /-- BHI: 45_branch_jump.md R216. -/
  | bhi (rel : Byte)
  /-- BLS: 45_branch_jump.md R218. -/
  | bls (rel : Byte)
  /-- BCC: 45_branch_jump.md R211. -/
  | bcc (rel : Byte)
  /-- BCS: 45_branch_jump.md R212. -/
  | bcs (rel : Byte)
  /-- BNE: 45_branch_jump.md R221. -/
  | bne (rel : Byte)
  /-- BEQ: 45_branch_jump.md R213. -/
  | beq (rel : Byte)
  /-- BVC: 45_branch_jump.md R222. -/
  | bvc (rel : Byte)
  /-- BVS: 45_branch_jump.md R223. -/
  | bvs (rel : Byte)
  /-- BPL: 45_branch_jump.md R224. -/
  | bpl (rel : Byte)
  /-- BMI: 45_branch_jump.md R220. -/
  | bmi (rel : Byte)
  /-- BGE: 45_branch_jump.md R214. -/
  | bge (rel : Byte)
  /-- BLT: 45_branch_jump.md R219. -/
  | blt (rel : Byte)
  /-- BGT: 45_branch_jump.md R215. -/
  | bgt (rel : Byte)
  /-- BLE: 45_branch_jump.md R217. -/
  | ble (rel : Byte)
  /-- TSX: 44_index_stack.md R200. -/
  | tsx
  /-- INS: 44_index_stack.md R194. -/
  | ins
  /-- PULA: 43_acc_mem_move.md R183. -/
  | pula
  /-- PULB: 43_acc_mem_move.md R183. -/
  | pulb
  /-- DES: 44_index_stack.md R192. -/
  | des
  /-- TXS: 44_index_stack.md R199. -/
  | txs
  /-- PSHA: 43_acc_mem_move.md R182. -/
  | psha
  /-- PSHB: 43_acc_mem_move.md R182. -/
  | pshb
  /-- RTS: 45_branch_jump.md R230. -/
  | rts
  /-- RTI: 45_branch_jump.md R229. -/
  | rti
  /-- WAI: 45_branch_jump.md R232. -/
  | wai
  /-- SWI: 45_branch_jump.md R231. -/
  | swi
  /-- NEGA: 41_acc_mem_arith.md R138. -/
  | nega
  /-- COMA: 42_acc_mem_logic_shift.md R164. -/
  | coma
  /-- LSRA: 42_acc_mem_logic_shift.md R169. -/
  | lsra
  /-- RORA: 42_acc_mem_logic_shift.md R166. -/
  | rora
  /-- ASRA: 42_acc_mem_logic_shift.md R168. -/
  | asra
  /-- ASLA: 42_acc_mem_logic_shift.md R167. -/
  | asla
  /-- ROLA: 42_acc_mem_logic_shift.md R165. -/
  | rola
  /-- DECA: 41_acc_mem_arith.md R141. -/
  | deca
  /-- INCA: 41_acc_mem_arith.md R140. -/
  | inca
  /-- TSTA: 41_acc_mem_arith.md R143. -/
  | tsta
  /-- CLRA: 41_acc_mem_arith.md R142. -/
  | clra
  /-- NEGB: 41_acc_mem_arith.md R138. -/
  | negb
  /-- COMB: 42_acc_mem_logic_shift.md R164. -/
  | comb
  /-- LSRB: 42_acc_mem_logic_shift.md R169. -/
  | lsrb
  /-- RORB: 42_acc_mem_logic_shift.md R166. -/
  | rorb
  /-- ASRB: 42_acc_mem_logic_shift.md R168. -/
  | asrb
  /-- ASLB: 42_acc_mem_logic_shift.md R167. -/
  | aslb
  /-- ROLB: 42_acc_mem_logic_shift.md R165. -/
  | rolb
  /-- DECB: 41_acc_mem_arith.md R141. -/
  | decb
  /-- INCB: 41_acc_mem_arith.md R140. -/
  | incb
  /-- TSTB: 41_acc_mem_arith.md R143. -/
  | tstb
  /-- CLRB: 41_acc_mem_arith.md R142. -/
  | clrb
  /-- NEG: 41_acc_mem_arith.md R138. -/
  | neg (m : AddrX)
  /-- COM: 42_acc_mem_logic_shift.md R164. -/
  | com (m : AddrX)
  /-- LSR: 42_acc_mem_logic_shift.md R169. -/
  | lsr (m : AddrX)
  /-- ROR: 42_acc_mem_logic_shift.md R166. -/
  | ror (m : AddrX)
  /-- ASR: 42_acc_mem_logic_shift.md R168. -/
  | asr (m : AddrX)
  /-- ASL: 42_acc_mem_logic_shift.md R167. -/
  | asl (m : AddrX)
  /-- ROL: 42_acc_mem_logic_shift.md R165. -/
  | rol (m : AddrX)
  /-- DEC: 41_acc_mem_arith.md R141. -/
  | dec (m : AddrX)
  /-- INC: 41_acc_mem_arith.md R140. -/
  | inc (m : AddrX)
  /-- TST: 41_acc_mem_arith.md R143. -/
  | tst (m : AddrX)
  /-- JMP: 45_branch_jump.md R226. -/
  | jmp (m : AddrX)
  /-- CLR: 41_acc_mem_arith.md R142. -/
  | clr (m : AddrX)
  /-- SUBA: 41_acc_mem_arith.md R133. -/
  | suba (m : Src8)
  /-- CMPA: 41_acc_mem_arith.md R136. -/
  | cmpa (m : Src8)
  /-- SBCA: 41_acc_mem_arith.md R134. -/
  | sbca (m : Src8)
  /-- ANDA: 42_acc_mem_logic_shift.md R160. -/
  | anda (m : Src8)
  /-- BITA: 42_acc_mem_logic_shift.md R161. -/
  | bita (m : Src8)
  /-- LDAA: 43_acc_mem_move.md R180. -/
  | ldaa (m : Src8)
  /-- EORA: 42_acc_mem_logic_shift.md R162. -/
  | eora (m : Src8)
  /-- ADCA: 41_acc_mem_arith.md R131. -/
  | adca (m : Src8)
  /-- ORAA: 42_acc_mem_logic_shift.md R163. -/
  | oraa (m : Src8)
  /-- ADDA: 41_acc_mem_arith.md R130. -/
  | adda (m : Src8)
  /-- CPX: 44_index_stack.md R190. -/
  | cpx (m : Src16)
  /-- BSR: 45_branch_jump.md R225. -/
  | bsr (rel : Byte)
  /-- LDS: 44_index_stack.md R196. -/
  | lds (m : Src16)
  /-- STAA: 43_acc_mem_move.md R181. -/
  | staa (m : Addr)
  /-- STS: 44_index_stack.md R198. -/
  | sts (m : Addr)
  /-- JSR: 45_branch_jump.md R227. -/
  | jsr (m : AddrX)
  /-- SUBB: 41_acc_mem_arith.md R133. -/
  | subb (m : Src8)
  /-- CMPB: 41_acc_mem_arith.md R136. -/
  | cmpb (m : Src8)
  /-- SBCB: 41_acc_mem_arith.md R134. -/
  | sbcb (m : Src8)
  /-- ANDB: 42_acc_mem_logic_shift.md R160. -/
  | andb (m : Src8)
  /-- BITB: 42_acc_mem_logic_shift.md R161. -/
  | bitb (m : Src8)
  /-- LDAB: 43_acc_mem_move.md R180. -/
  | ldab (m : Src8)
  /-- EORB: 42_acc_mem_logic_shift.md R162. -/
  | eorb (m : Src8)
  /-- ADCB: 41_acc_mem_arith.md R131. -/
  | adcb (m : Src8)
  /-- ORAB: 42_acc_mem_logic_shift.md R163. -/
  | orab (m : Src8)
  /-- ADDB: 41_acc_mem_arith.md R130. -/
  | addb (m : Src8)
  /-- LDX: 44_index_stack.md R195. -/
  | ldx (m : Src16)
  /-- STAB: 43_acc_mem_move.md R181. -/
  | stab (m : Addr)
  /-- STX: 44_index_stack.md R197. -/
  | stx (m : Addr)
  /-- UNASSIGNED: one of the 59 first bytes that name no instruction (30_encoding.md R86, 60_exceptions.md R277). -/
  | unassigned (op : Byte)
  deriving DecidableEq, Repr

end Sys2Proof
end

