-- ==== Sys2Proof/WellFormed.lean ====
section
/-! DEFINITION. Which terms of Instr stand for something the machine can fetch. The operand types admit only the modes
the opcode table gives, so the one thing left to check is an unassigned code. -/

namespace Sys2Proof

/-- The 59 first bytes that name no instruction, as 30_encoding.md R86 lists them. -/
def unassignedCodes : List Byte :=
  [0x00, 0x02, 0x03, 0x04, 0x05,
   0x12, 0x13, 0x14, 0x15, 0x18, 0x1A, 0x1C, 0x1D, 0x1E, 0x1F,
   0x21,
   0x38, 0x3A, 0x3C, 0x3D,
   0x41, 0x42, 0x45, 0x4B, 0x4E,
   0x51, 0x52, 0x55, 0x5B, 0x5E,
   0x61, 0x62, 0x65, 0x6B,
   0x71, 0x72, 0x75, 0x7B,
   0x83, 0x87, 0x8F,
   0x93, 0x9D,
   0xA3,
   0xB3,
   0xC3, 0xC7, 0xCC, 0xCD, 0xCF,
   0xD3, 0xDC, 0xDD,
   0xE3, 0xEC, 0xED,
   0xF3, 0xFC, 0xFD]

/-- An instruction is well-formed unless it calls a byte unassigned that is assigned. -/
def Instr.wf : Instr → Bool
  | .nop | .tap | .tpa | .inx | .dex | .clv | .sev | .clc | .sec | .cli | .sei | .sba | .cba | .tab
  | .tba | .daa | .aba | .bra _ | .bhi _ | .bls _ | .bcc _ | .bcs _ | .bne _ | .beq _ | .bvc _ | .bvs _
  | .bpl _ | .bmi _ | .bge _ | .blt _ | .bgt _ | .ble _ | .tsx | .ins | .pula | .pulb | .des | .txs
  | .psha | .pshb | .rts | .rti | .wai | .swi | .nega | .coma | .lsra | .rora | .asra | .asla | .rola
  | .deca | .inca | .tsta | .clra | .negb | .comb | .lsrb | .rorb | .asrb | .aslb | .rolb | .decb
  | .incb | .tstb | .clrb | .neg _ | .com _ | .lsr _ | .ror _ | .asr _ | .asl _ | .rol _ | .dec _
  | .inc _ | .tst _ | .jmp _ | .clr _ | .suba _ | .cmpa _ | .sbca _ | .anda _ | .bita _ | .ldaa _
  | .eora _ | .adca _ | .oraa _ | .adda _ | .cpx _ | .bsr _ | .lds _ | .staa _ | .sts _ | .jsr _
  | .subb _ | .cmpb _ | .sbcb _ | .andb _ | .bitb _ | .ldab _ | .eorb _ | .adcb _ | .orab _ | .addb _
  | .ldx _ | .stab _ | .stx _ => true
  | .unassigned op => unassignedCodes.contains op

end Sys2Proof
end

