-- ==== Sys2Proof/Decode.lean ====
section
/-! DEFINITION. The decoder, total on any bytes, and the encoder. Spec: 30_encoding.md. -/

namespace Sys2Proof

open Sys2Proof.Machine (wordOf hi8 lo8)

/-! ### Formats and lengths -/

/-- The encoding formats of 30_encoding.md R81; an unassigned code has none. -/
inductive Format where
  | inh | acc | imm8 | imm16 | dir | idx | ext | rel | unassigned
  deriving DecidableEq, Repr

/-- The bytes of a format, opcode included (30_encoding.md R81). No source gives an unassigned code a length; only
its opcode byte is read (60_exceptions.md R277). -/
def Format.length : Format → Nat
  | .inh | .acc | .unassigned => 1
  | .imm8 | .dir | .idx | .rel => 2
  | .imm16 | .ext => 3

/-- The format a direct, indexed or extended operand is encoded in. -/
def Addr.format : Addr → Format
  | .dir _ => .dir
  | .idx _ => .idx
  | .ext _ => .ext

/-- The format an indexed or extended operand is encoded in. -/
def AddrX.format : AddrX → Format
  | .idx _ => .idx
  | .ext _ => .ext

/-- The format an 8-bit second operand is encoded in. -/
def Src8.format : Src8 → Format
  | .imm _ => .imm8
  | .mem m => m.format

/-- The format a 16-bit operand is encoded in. -/
def Src16.format : Src16 → Format
  | .imm _ => .imm16
  | .mem m => m.format

/-- The format of an instruction (30_encoding.md R81, R84). -/
def Instr.format : Instr → Format
  | .nop | .tap | .tpa | .inx | .dex | .clv | .sev | .clc | .sec | .cli | .sei | .sba | .cba | .tab
  | .tba | .daa | .aba | .tsx | .ins | .des | .txs | .rts | .rti | .wai | .swi => .inh
  | .pula | .pulb | .psha | .pshb | .nega | .coma | .lsra | .rora | .asra | .asla | .rola | .deca
  | .inca | .tsta | .clra | .negb | .comb | .lsrb | .rorb | .asrb | .aslb | .rolb | .decb | .incb
  | .tstb | .clrb => .acc
  | .bra _ | .bhi _ | .bls _ | .bcc _ | .bcs _ | .bne _ | .beq _ | .bvc _ | .bvs _ | .bpl _ | .bmi _
  | .bge _ | .blt _ | .bgt _ | .ble _ | .bsr _ => .rel
  | .suba m | .cmpa m | .sbca m | .anda m | .bita m | .ldaa m | .eora m | .adca m | .oraa m | .adda m
  | .subb m | .cmpb m | .sbcb m | .andb m | .bitb m | .ldab m | .eorb m | .adcb m | .orab m | .addb m => m.format
  | .cpx m | .lds m | .ldx m => m.format
  | .staa m | .sts m | .stab m | .stx m => m.format
  | .neg m | .com m | .lsr m | .ror m | .asr m | .asl m | .rol m | .dec m | .inc m | .tst m | .jmp m
  | .clr m | .jsr m => m.format
  | .unassigned _ => .unassigned

/-- How many bytes an instruction takes (30_encoding.md R80, R81). -/
def Instr.length (i : Instr) : Nat := i.format.length

/-! ### The opcode map

One function per column of the map of 30_encoding.md R84: the high digit of the first byte names the column, the low
digit `lo` the row. `b1` and `b2` are the second and third bytes, used by the formats that have them (R83). A cell
marked * in the map is `unassigned`. -/

/-- Column 0x of the map. -/
def column0 (lo : Nat) (op _b1 _b2 : Byte) : Instr :=
  match lo with
  | 0x1 => .nop
  | 0x6 => .tap
  | 0x7 => .tpa
  | 0x8 => .inx
  | 0x9 => .dex
  | 0xA => .clv
  | 0xB => .sev
  | 0xC => .clc
  | 0xD => .sec
  | 0xE => .cli
  | 0xF => .sei
  | _ => .unassigned op

/-- Column 1x of the map. -/
def column1 (lo : Nat) (op _b1 _b2 : Byte) : Instr :=
  match lo with
  | 0x0 => .sba
  | 0x1 => .cba
  | 0x6 => .tab
  | 0x7 => .tba
  | 0x9 => .daa
  | 0xB => .aba
  | _ => .unassigned op

/-- Column 2x of the map. -/
def column2 (lo : Nat) (op b1 _b2 : Byte) : Instr :=
  match lo with
  | 0x0 => .bra b1
  | 0x2 => .bhi b1
  | 0x3 => .bls b1
  | 0x4 => .bcc b1
  | 0x5 => .bcs b1
  | 0x6 => .bne b1
  | 0x7 => .beq b1
  | 0x8 => .bvc b1
  | 0x9 => .bvs b1
  | 0xA => .bpl b1
  | 0xB => .bmi b1
  | 0xC => .bge b1
  | 0xD => .blt b1
  | 0xE => .bgt b1
  | 0xF => .ble b1
  | _ => .unassigned op

/-- Column 3x of the map. -/
def column3 (lo : Nat) (op _b1 _b2 : Byte) : Instr :=
  match lo with
  | 0x0 => .tsx
  | 0x1 => .ins
  | 0x2 => .pula
  | 0x3 => .pulb
  | 0x4 => .des
  | 0x5 => .txs
  | 0x6 => .psha
  | 0x7 => .pshb
  | 0x9 => .rts
  | 0xB => .rti
  | 0xE => .wai
  | 0xF => .swi
  | _ => .unassigned op

/-- Column 4x of the map. -/
def column4 (lo : Nat) (op _b1 _b2 : Byte) : Instr :=
  match lo with
  | 0x0 => .nega
  | 0x3 => .coma
  | 0x4 => .lsra
  | 0x6 => .rora
  | 0x7 => .asra
  | 0x8 => .asla
  | 0x9 => .rola
  | 0xA => .deca
  | 0xC => .inca
  | 0xD => .tsta
  | 0xF => .clra
  | _ => .unassigned op

/-- Column 5x of the map. -/
def column5 (lo : Nat) (op _b1 _b2 : Byte) : Instr :=
  match lo with
  | 0x0 => .negb
  | 0x3 => .comb
  | 0x4 => .lsrb
  | 0x6 => .rorb
  | 0x7 => .asrb
  | 0x8 => .aslb
  | 0x9 => .rolb
  | 0xA => .decb
  | 0xC => .incb
  | 0xD => .tstb
  | 0xF => .clrb
  | _ => .unassigned op

/-- Column 6x of the map. -/
def column6 (lo : Nat) (op b1 _b2 : Byte) : Instr :=
  match lo with
  | 0x0 => .neg (.idx b1)
  | 0x3 => .com (.idx b1)
  | 0x4 => .lsr (.idx b1)
  | 0x6 => .ror (.idx b1)
  | 0x7 => .asr (.idx b1)
  | 0x8 => .asl (.idx b1)
  | 0x9 => .rol (.idx b1)
  | 0xA => .dec (.idx b1)
  | 0xC => .inc (.idx b1)
  | 0xD => .tst (.idx b1)
  | 0xE => .jmp (.idx b1)
  | 0xF => .clr (.idx b1)
  | _ => .unassigned op

/-- Column 7x of the map. -/
def column7 (lo : Nat) (op b1 b2 : Byte) : Instr :=
  match lo with
  | 0x0 => .neg (.ext (wordOf b1 b2))
  | 0x3 => .com (.ext (wordOf b1 b2))
  | 0x4 => .lsr (.ext (wordOf b1 b2))
  | 0x6 => .ror (.ext (wordOf b1 b2))
  | 0x7 => .asr (.ext (wordOf b1 b2))
  | 0x8 => .asl (.ext (wordOf b1 b2))
  | 0x9 => .rol (.ext (wordOf b1 b2))
  | 0xA => .dec (.ext (wordOf b1 b2))
  | 0xC => .inc (.ext (wordOf b1 b2))
  | 0xD => .tst (.ext (wordOf b1 b2))
  | 0xE => .jmp (.ext (wordOf b1 b2))
  | 0xF => .clr (.ext (wordOf b1 b2))
  | _ => .unassigned op

/-- Column 8x of the map. -/
def column8 (lo : Nat) (op b1 b2 : Byte) : Instr :=
  match lo with
  | 0x0 => .suba (.imm b1)
  | 0x1 => .cmpa (.imm b1)
  | 0x2 => .sbca (.imm b1)
  | 0x4 => .anda (.imm b1)
  | 0x5 => .bita (.imm b1)
  | 0x6 => .ldaa (.imm b1)
  | 0x8 => .eora (.imm b1)
  | 0x9 => .adca (.imm b1)
  | 0xA => .oraa (.imm b1)
  | 0xB => .adda (.imm b1)
  | 0xC => .cpx (.imm (wordOf b1 b2))
  | 0xD => .bsr b1
  | 0xE => .lds (.imm (wordOf b1 b2))
  | _ => .unassigned op

/-- Column 9x of the map. -/
def column9 (lo : Nat) (op b1 _b2 : Byte) : Instr :=
  match lo with
  | 0x0 => .suba (.mem (.dir b1))
  | 0x1 => .cmpa (.mem (.dir b1))
  | 0x2 => .sbca (.mem (.dir b1))
  | 0x4 => .anda (.mem (.dir b1))
  | 0x5 => .bita (.mem (.dir b1))
  | 0x6 => .ldaa (.mem (.dir b1))
  | 0x7 => .staa (.dir b1)
  | 0x8 => .eora (.mem (.dir b1))
  | 0x9 => .adca (.mem (.dir b1))
  | 0xA => .oraa (.mem (.dir b1))
  | 0xB => .adda (.mem (.dir b1))
  | 0xC => .cpx (.mem (.dir b1))
  | 0xE => .lds (.mem (.dir b1))
  | 0xF => .sts (.dir b1)
  | _ => .unassigned op

/-- Column Ax of the map. -/
def columnA (lo : Nat) (op b1 _b2 : Byte) : Instr :=
  match lo with
  | 0x0 => .suba (.mem (.idx b1))
  | 0x1 => .cmpa (.mem (.idx b1))
  | 0x2 => .sbca (.mem (.idx b1))
  | 0x4 => .anda (.mem (.idx b1))
  | 0x5 => .bita (.mem (.idx b1))
  | 0x6 => .ldaa (.mem (.idx b1))
  | 0x7 => .staa (.idx b1)
  | 0x8 => .eora (.mem (.idx b1))
  | 0x9 => .adca (.mem (.idx b1))
  | 0xA => .oraa (.mem (.idx b1))
  | 0xB => .adda (.mem (.idx b1))
  | 0xC => .cpx (.mem (.idx b1))
  | 0xD => .jsr (.idx b1)
  | 0xE => .lds (.mem (.idx b1))
  | 0xF => .sts (.idx b1)
  | _ => .unassigned op

/-- Column Bx of the map. -/
def columnB (lo : Nat) (op b1 b2 : Byte) : Instr :=
  match lo with
  | 0x0 => .suba (.mem (.ext (wordOf b1 b2)))
  | 0x1 => .cmpa (.mem (.ext (wordOf b1 b2)))
  | 0x2 => .sbca (.mem (.ext (wordOf b1 b2)))
  | 0x4 => .anda (.mem (.ext (wordOf b1 b2)))
  | 0x5 => .bita (.mem (.ext (wordOf b1 b2)))
  | 0x6 => .ldaa (.mem (.ext (wordOf b1 b2)))
  | 0x7 => .staa (.ext (wordOf b1 b2))
  | 0x8 => .eora (.mem (.ext (wordOf b1 b2)))
  | 0x9 => .adca (.mem (.ext (wordOf b1 b2)))
  | 0xA => .oraa (.mem (.ext (wordOf b1 b2)))
  | 0xB => .adda (.mem (.ext (wordOf b1 b2)))
  | 0xC => .cpx (.mem (.ext (wordOf b1 b2)))
  | 0xD => .jsr (.ext (wordOf b1 b2))
  | 0xE => .lds (.mem (.ext (wordOf b1 b2)))
  | 0xF => .sts (.ext (wordOf b1 b2))
  | _ => .unassigned op

/-- Column Cx of the map. -/
def columnC (lo : Nat) (op b1 b2 : Byte) : Instr :=
  match lo with
  | 0x0 => .subb (.imm b1)
  | 0x1 => .cmpb (.imm b1)
  | 0x2 => .sbcb (.imm b1)
  | 0x4 => .andb (.imm b1)
  | 0x5 => .bitb (.imm b1)
  | 0x6 => .ldab (.imm b1)
  | 0x8 => .eorb (.imm b1)
  | 0x9 => .adcb (.imm b1)
  | 0xA => .orab (.imm b1)
  | 0xB => .addb (.imm b1)
  | 0xE => .ldx (.imm (wordOf b1 b2))
  | _ => .unassigned op

/-- Column Dx of the map. -/
def columnD (lo : Nat) (op b1 _b2 : Byte) : Instr :=
  match lo with
  | 0x0 => .subb (.mem (.dir b1))
  | 0x1 => .cmpb (.mem (.dir b1))
  | 0x2 => .sbcb (.mem (.dir b1))
  | 0x4 => .andb (.mem (.dir b1))
  | 0x5 => .bitb (.mem (.dir b1))
  | 0x6 => .ldab (.mem (.dir b1))
  | 0x7 => .stab (.dir b1)
  | 0x8 => .eorb (.mem (.dir b1))
  | 0x9 => .adcb (.mem (.dir b1))
  | 0xA => .orab (.mem (.dir b1))
  | 0xB => .addb (.mem (.dir b1))
  | 0xE => .ldx (.mem (.dir b1))
  | 0xF => .stx (.dir b1)
  | _ => .unassigned op

/-- Column Ex of the map. -/
def columnE (lo : Nat) (op b1 _b2 : Byte) : Instr :=
  match lo with
  | 0x0 => .subb (.mem (.idx b1))
  | 0x1 => .cmpb (.mem (.idx b1))
  | 0x2 => .sbcb (.mem (.idx b1))
  | 0x4 => .andb (.mem (.idx b1))
  | 0x5 => .bitb (.mem (.idx b1))
  | 0x6 => .ldab (.mem (.idx b1))
  | 0x7 => .stab (.idx b1)
  | 0x8 => .eorb (.mem (.idx b1))
  | 0x9 => .adcb (.mem (.idx b1))
  | 0xA => .orab (.mem (.idx b1))
  | 0xB => .addb (.mem (.idx b1))
  | 0xE => .ldx (.mem (.idx b1))
  | 0xF => .stx (.idx b1)
  | _ => .unassigned op

/-- Column Fx of the map. -/
def columnF (lo : Nat) (op b1 b2 : Byte) : Instr :=
  match lo with
  | 0x0 => .subb (.mem (.ext (wordOf b1 b2)))
  | 0x1 => .cmpb (.mem (.ext (wordOf b1 b2)))
  | 0x2 => .sbcb (.mem (.ext (wordOf b1 b2)))
  | 0x4 => .andb (.mem (.ext (wordOf b1 b2)))
  | 0x5 => .bitb (.mem (.ext (wordOf b1 b2)))
  | 0x6 => .ldab (.mem (.ext (wordOf b1 b2)))
  | 0x7 => .stab (.ext (wordOf b1 b2))
  | 0x8 => .eorb (.mem (.ext (wordOf b1 b2)))
  | 0x9 => .adcb (.mem (.ext (wordOf b1 b2)))
  | 0xA => .orab (.mem (.ext (wordOf b1 b2)))
  | 0xB => .addb (.mem (.ext (wordOf b1 b2)))
  | 0xE => .ldx (.mem (.ext (wordOf b1 b2)))
  | 0xF => .stx (.ext (wordOf b1 b2))
  | _ => .unassigned op

/-- The instruction whose first byte is `op` and whose operand bytes, where it has them, are `b1` and `b2`
(30_encoding.md R82, R84). -/
def decodeOp (op b1 b2 : Byte) : Instr :=
  let lo := op.toNat % 16
  match op.toNat / 16 with
  | 0x0 => column0 lo op b1 b2
  | 0x1 => column1 lo op b1 b2
  | 0x2 => column2 lo op b1 b2
  | 0x3 => column3 lo op b1 b2
  | 0x4 => column4 lo op b1 b2
  | 0x5 => column5 lo op b1 b2
  | 0x6 => column6 lo op b1 b2
  | 0x7 => column7 lo op b1 b2
  | 0x8 => column8 lo op b1 b2
  | 0x9 => column9 lo op b1 b2
  | 0xA => columnA lo op b1 b2
  | 0xB => columnB lo op b1 b2
  | 0xC => columnC lo op b1 b2
  | 0xD => columnD lo op b1 b2
  | 0xE => columnE lo op b1 b2
  | _ => columnF lo op b1 b2

/-- The length that the first byte alone decides (30_encoding.md R82). -/
def opLength (op : Byte) : Nat := (decodeOp op 0 0).length

/-! ### The decoder over a list of bytes -/

/-- Why a list of bytes holds no instruction. -/
inductive DecodeError where
  /-- There is no byte at all. -/
  | noByte
  /-- The first byte asks for more operand bytes than there are. -/
  | truncated (op : Byte)
  deriving DecidableEq, Repr

/-- Reads one instruction from the front of a list of bytes and answers it with the bytes after it. An unassigned
first byte is the instruction `unassigned`, which exec stops on by name. -/
def decode (bytes : List Byte) : Except DecodeError (Instr × List Byte) :=
  match bytes with
  | [] => .error .noByte
  | op :: rest =>
    match opLength op, rest with
    | 1, _ => .ok (decodeOp op 0 0, rest)
    | 2, b1 :: rest' => .ok (decodeOp op b1 0, rest')
    | 3, b1 :: b2 :: rest' => .ok (decodeOp op b1 b2, rest')
    | _, _ => .error (.truncated op)

/-- Byte `k` of a table word: byte 0 is the first byte, in the word's low bits. -/
def tableByte (w k : Nat) : Byte := BitVec.ofNat 8 (w / 256 ^ k)

/-- The bits of a table word that lie below `nbits`. -/
def tableBits (nbits w : Nat) : Nat := w % 2 ^ nbits

/-- The instruction the decoder reads from a table word: its bytes laid out first byte first, zeros above `nbits`,
up to the longest instruction. -/
def decodeTableWord (nbits w : Nat) : Option Instr :=
  let v := tableBits nbits w
  match decode [tableByte v 0, tableByte v 1, tableByte v 2] with
  | .ok (i, _) => some i
  | .error _ => none

/-! ### The encoder -/

/-- The bytes of an operand that has the direct, indexed and extended forms, the opcode of each form given. -/
def encodeAddr (dirOp idxOp extOp : Byte) : Addr → List Byte
  | .dir a => [dirOp, a]
  | .idx o => [idxOp, o]
  | .ext a => [extOp, hi8 a, lo8 a]

/-- The bytes of an operand that has the indexed and extended forms. -/
def encodeAddrX (idxOp extOp : Byte) : AddrX → List Byte
  | .idx o => [idxOp, o]
  | .ext a => [extOp, hi8 a, lo8 a]

/-- The bytes of an instruction with an 8-bit second operand. -/
def encodeSrc8 (immOp dirOp idxOp extOp : Byte) : Src8 → List Byte
  | .imm v => [immOp, v]
  | .mem m => encodeAddr dirOp idxOp extOp m

/-- The bytes of an instruction with a 16-bit operand. -/
def encodeSrc16 (immOp dirOp idxOp extOp : Byte) : Src16 → List Byte
  | .imm v => [immOp, hi8 v, lo8 v]
  | .mem m => encodeAddr dirOp idxOp extOp m

/-- The bytes of an instruction: its opcode by the Encoding line of its rule (files 41 to 46), then its operand
bytes by 30_encoding.md R81. -/
def encode : Instr → List Byte
  | .nop => [0x01]
  | .tap => [0x06]
  | .tpa => [0x07]
  | .inx => [0x08]
  | .dex => [0x09]
  | .clv => [0x0A]
  | .sev => [0x0B]
  | .clc => [0x0C]
  | .sec => [0x0D]
  | .cli => [0x0E]
  | .sei => [0x0F]
  | .sba => [0x10]
  | .cba => [0x11]
  | .tab => [0x16]
  | .tba => [0x17]
  | .daa => [0x19]
  | .aba => [0x1B]
  | .bra rel => [0x20, rel]
  | .bhi rel => [0x22, rel]
  | .bls rel => [0x23, rel]
  | .bcc rel => [0x24, rel]
  | .bcs rel => [0x25, rel]
  | .bne rel => [0x26, rel]
  | .beq rel => [0x27, rel]
  | .bvc rel => [0x28, rel]
  | .bvs rel => [0x29, rel]
  | .bpl rel => [0x2A, rel]
  | .bmi rel => [0x2B, rel]
  | .bge rel => [0x2C, rel]
  | .blt rel => [0x2D, rel]
  | .bgt rel => [0x2E, rel]
  | .ble rel => [0x2F, rel]
  | .tsx => [0x30]
  | .ins => [0x31]
  | .pula => [0x32]
  | .pulb => [0x33]
  | .des => [0x34]
  | .txs => [0x35]
  | .psha => [0x36]
  | .pshb => [0x37]
  | .rts => [0x39]
  | .rti => [0x3B]
  | .wai => [0x3E]
  | .swi => [0x3F]
  | .nega => [0x40]
  | .coma => [0x43]
  | .lsra => [0x44]
  | .rora => [0x46]
  | .asra => [0x47]
  | .asla => [0x48]
  | .rola => [0x49]
  | .deca => [0x4A]
  | .inca => [0x4C]
  | .tsta => [0x4D]
  | .clra => [0x4F]
  | .negb => [0x50]
  | .comb => [0x53]
  | .lsrb => [0x54]
  | .rorb => [0x56]
  | .asrb => [0x57]
  | .aslb => [0x58]
  | .rolb => [0x59]
  | .decb => [0x5A]
  | .incb => [0x5C]
  | .tstb => [0x5D]
  | .clrb => [0x5F]
  | .neg m => encodeAddrX 0x60 0x70 m
  | .com m => encodeAddrX 0x63 0x73 m
  | .lsr m => encodeAddrX 0x64 0x74 m
  | .ror m => encodeAddrX 0x66 0x76 m
  | .asr m => encodeAddrX 0x67 0x77 m
  | .asl m => encodeAddrX 0x68 0x78 m
  | .rol m => encodeAddrX 0x69 0x79 m
  | .dec m => encodeAddrX 0x6A 0x7A m
  | .inc m => encodeAddrX 0x6C 0x7C m
  | .tst m => encodeAddrX 0x6D 0x7D m
  | .jmp m => encodeAddrX 0x6E 0x7E m
  | .clr m => encodeAddrX 0x6F 0x7F m
  | .suba m => encodeSrc8 0x80 0x90 0xA0 0xB0 m
  | .cmpa m => encodeSrc8 0x81 0x91 0xA1 0xB1 m
  | .sbca m => encodeSrc8 0x82 0x92 0xA2 0xB2 m
  | .anda m => encodeSrc8 0x84 0x94 0xA4 0xB4 m
  | .bita m => encodeSrc8 0x85 0x95 0xA5 0xB5 m
  | .ldaa m => encodeSrc8 0x86 0x96 0xA6 0xB6 m
  | .eora m => encodeSrc8 0x88 0x98 0xA8 0xB8 m
  | .adca m => encodeSrc8 0x89 0x99 0xA9 0xB9 m
  | .oraa m => encodeSrc8 0x8A 0x9A 0xAA 0xBA m
  | .adda m => encodeSrc8 0x8B 0x9B 0xAB 0xBB m
  | .cpx m => encodeSrc16 0x8C 0x9C 0xAC 0xBC m
  | .bsr rel => [0x8D, rel]
  | .lds m => encodeSrc16 0x8E 0x9E 0xAE 0xBE m
  | .staa m => encodeAddr 0x97 0xA7 0xB7 m
  | .sts m => encodeAddr 0x9F 0xAF 0xBF m
  | .jsr m => encodeAddrX 0xAD 0xBD m
  | .subb m => encodeSrc8 0xC0 0xD0 0xE0 0xF0 m
  | .cmpb m => encodeSrc8 0xC1 0xD1 0xE1 0xF1 m
  | .sbcb m => encodeSrc8 0xC2 0xD2 0xE2 0xF2 m
  | .andb m => encodeSrc8 0xC4 0xD4 0xE4 0xF4 m
  | .bitb m => encodeSrc8 0xC5 0xD5 0xE5 0xF5 m
  | .ldab m => encodeSrc8 0xC6 0xD6 0xE6 0xF6 m
  | .eorb m => encodeSrc8 0xC8 0xD8 0xE8 0xF8 m
  | .adcb m => encodeSrc8 0xC9 0xD9 0xE9 0xF9 m
  | .orab m => encodeSrc8 0xCA 0xDA 0xEA 0xFA m
  | .addb m => encodeSrc8 0xCB 0xDB 0xEB 0xFB m
  | .ldx m => encodeSrc16 0xCE 0xDE 0xEE 0xFE m
  | .stab m => encodeAddr 0xD7 0xE7 0xF7 m
  | .stx m => encodeAddr 0xDF 0xEF 0xFF m
  | .unassigned op => [op]

end Sys2Proof
end

