-- ==== Sys2Proof/Machine/Timing.lean ====
section
/-! DEFINITION. Machine cycles, for reporting only: no rule of the state transition depends on them
(70_reset_and_hazards.md R308). Log entry 15. -/

namespace Sys2Proof.Machine

/-- Cycles by the form of a memory operand: direct, indexed, extended. -/
def addrCycles (dir idx ext : Nat) : Addr → Nat
  | .dir _ => dir
  | .idx _ => idx
  | .ext _ => ext

/-- Cycles by the form of a memory operand without a direct form: indexed, extended. -/
def addrXCycles (idx ext : Nat) : AddrX → Nat
  | .idx _ => idx
  | .ext _ => ext

/-- Cycles by the form of an 8-bit operand: immediate, direct, indexed, extended. -/
def src8Cycles (imm dir idx ext : Nat) : Src8 → Nat
  | .imm _ => imm
  | .mem m => addrCycles dir idx ext m

/-- Cycles by the form of a 16-bit operand: immediate, direct, indexed, extended. -/
def src16Cycles (imm dir idx ext : Nat) : Src16 → Nat
  | .imm _ => imm
  | .mem m => addrCycles dir idx ext m

/-- The "~" column: machine cycles of an instruction (40_addressing_modes.md R120, 70_reset_and_hazards.md R309). An
unassigned code has none. -/
def instrCycles : Instr → Nat
  | .nop | .tap | .tpa | .clv | .sev | .clc | .sec | .cli | .sei | .sba | .cba | .tab | .tba | .daa
  | .aba | .nega | .coma | .lsra | .rora | .asra | .asla | .rola | .deca | .inca | .tsta | .clra | .negb
  | .comb | .lsrb | .rorb | .asrb | .aslb | .rolb | .decb | .incb | .tstb | .clrb => 2
  | .inx | .dex | .bra _ | .bhi _ | .bls _ | .bcc _ | .bcs _ | .bne _ | .beq _ | .bvc _ | .bvs _
  | .bpl _ | .bmi _ | .bge _ | .blt _ | .bgt _ | .ble _ | .tsx | .ins | .pula | .pulb | .des | .txs
  | .psha | .pshb => 4
  | .rts => 5
  | .rti => 10
  | .wai => 9
  | .swi => 12
  | .neg m | .com m | .lsr m | .ror m | .asr m | .asl m | .rol m | .dec m | .inc m | .tst m | .clr m => addrXCycles 7 6 m
  | .jmp m => addrXCycles 4 3 m
  | .suba m | .cmpa m | .sbca m | .anda m | .bita m | .ldaa m | .eora m | .adca m | .oraa m | .adda m
  | .subb m | .cmpb m | .sbcb m | .andb m | .bitb m | .ldab m | .eorb m | .adcb m | .orab m | .addb m => src8Cycles 2 3 5 4 m
  | .cpx m | .lds m | .ldx m => src16Cycles 3 4 6 5 m
  | .bsr _ => 8
  | .staa m | .stab m => addrCycles 4 6 5 m
  | .sts m | .stx m => addrCycles 5 7 6 m
  | .jsr m => addrXCycles 8 9 m
  | .unassigned _ => 0

/-- From the end of the instruction in progress to the handler's first instruction: 12 cycles, 4 when WAI has already
stacked (60_exceptions.md R275, 70_reset_and_hazards.md R310). -/
def entryCycles (s : State) : Nat := if s.waiting = true then 4 else 12

end Sys2Proof.Machine
end

