-- ==== Sys2Proof/Machine/Events.lean ====
section
/-! DEFINITION. What is examined at an instruction boundary, and the entries that are steps of their own:
60_exceptions.md R266 to R273, R281. -/

namespace Sys2Proof.Machine

/-- What the machine does at a boundary, in the order the tests are made (R266, R270). -/
inductive Boundary where
  /-- RESET is active: the reset sequence is repeated. -/
  | reset
  /-- HALT is active: nothing changes. -/
  | halt
  /-- An NMI request is answered. -/
  | nmi
  /-- The IRQ input is answered. -/
  | irq
  /-- WAI waits on: nothing changes. -/
  | wait
  /-- An instruction is fetched. -/
  | instruction
  deriving DecidableEq, Repr

/-- IRQ is accepted: the line is low, I is 0, and no holdoff of I_CLEAR_DELAY is in force (R266, R267). -/
def irqAccepted (s : State) : Bool := s.irqLow && !s.cc.i && !(s.params.iClearDelay && s.irqHoldoff)

/-- RESET, then HALT, then NMI, then IRQ, then the wait state, then the next instruction (R266). -/
def boundary (s : State) : Boundary :=
  if s.resetActive = true then .reset
  else if s.halted = true then .halt
  else if s.nmiPending = true then .nmi
  else if irqAccepted s = true then .irq
  else if s.waiting = true then .wait
  else .instruction

/-- The record of accesses is that of one step, so a step starts with none. -/
def beginStep (s : State) : State := s.setBus []

/-- A boundary that is neither RESET nor HALT ends the holdoff (R266). -/
def endHoldoff (s : State) : State := s.setIrqHoldoff false

/-- An entry through `vector`, its response time counted (R264, R275). -/
def takeInterrupt (vector : Word) (s : State) : State :=
  (interruptEntry vector s).setCycles (s.cycles + entryCycles s)

/-- The NMI entry answers the request (R268). -/
def acceptNmi (s : State) : State := takeInterrupt nmiVector ((endHoldoff s).setNmiPending false)

/-- The IRQ entry: the input is a level, nothing is cleared but the holdoff (R267). -/
def acceptIrq (s : State) : State := takeInterrupt irqVector (endHoldoff s)

end Sys2Proof.Machine
end

