-- ==== Sys2Proof/Machine/Operands.lean ====
section
/-! DEFINITION. Effective addresses, operands and branch targets: 40_addressing_modes.md. -/

namespace Sys2Proof.Machine

/-- `EA(fmt)` (R115 direct, R117 indexed, R116 extended). -/
def effAddr (m : Addr) (s : State) : Word :=
  match m with
  | .dir a => zext16 a
  | .idx o => s.x + zext16 o
  | .ext a => a

/-- `EA(fmt)` of an instruction without a direct form. -/
def effAddrX (m : AddrX) (s : State) : Word :=
  match m with
  | .idx o => s.x + zext16 o
  | .ext a => a

/-- `Operand8(fmt)` (R119). -/
def readSrc8 (m : Src8) (s : State) : Byte × State :=
  match m with
  | .imm v => (v, s)
  | .mem ea => read8 (effAddr ea s) s

/-- `Operand16(fmt)` (R119). -/
def readSrc16 (m : Src16) (s : State) : Word × State :=
  match m with
  | .imm v => (v, s)
  | .mem ea => read16 (effAddr ea s) s

/-- `BranchTarget()`: `pc` has already been advanced past the branch (R118). -/
def branchTarget (rel : Byte) (s : State) : Word := s.pc + sext16 rel

/-! ### The shapes of the accumulator and memory instructions -/

/-- An accumulator and an operand give the accumulator a result (R111, R119). -/
def combineAcc (op : Byte → Byte → Flags → Byte × Flags) (r : Acc) (m : Src8) (s : State) : State :=
  let o := readSrc8 m s
  let p := op (s.acc r) o.1 s.cc
  (o.2.setAcc r p.1).setCc p.2

/-- As `combineAcc`, the result discarded: flags only. -/
def compareAcc (op : Byte → Byte → Flags → Byte × Flags) (r : Acc) (m : Src8) (s : State) : State :=
  let o := readSrc8 m s
  o.2.setCc (op (s.acc r) o.1 s.cc).2

/-- A single-operand instruction on an accumulator (R112). -/
def modifyAcc (op : Byte → Flags → Byte × Flags) (r : Acc) (s : State) : State :=
  let p := op (s.acc r) s.cc
  (s.setAcc r p.1).setCc p.2

/-- A single-operand instruction on a memory byte: one read, then one write at the same address (R112,
20_memory.md R62, R65). -/
def modifyMem (op : Byte → Flags → Byte × Flags) (m : AddrX) (s : State) : State :=
  let o := read8 (effAddrX m s) s
  let p := op o.1 s.cc
  (write8 (effAddrX m s) p.1 o.2).setCc p.2

end Sys2Proof.Machine
end

