-- ==== Sys2Proof/Machine/Arith.lean ====
section
/-! DEFINITION. The meanings of 41_acc_mem_arith.md: addition, subtraction, comparison, decimal adjust, step, clear, test.
Each meaning starts from the state after the fetch: PC is already past the instruction (40_addressing_modes.md R110). -/

namespace Sys2Proof.Machine

/-- ADDA (R130). -/
def execAdda (m : Src8) (s : State) : Host.Outcome State Fault Refusal :=
  .next (combineAcc opAdd .a m s)

/-- ADDB (R130). -/
def execAddb (m : Src8) (s : State) : Host.Outcome State Fault Refusal :=
  .next (combineAcc opAdd .b m s)

/-- ADCA (R131). -/
def execAdca (m : Src8) (s : State) : Host.Outcome State Fault Refusal :=
  .next (combineAcc opAdc .a m s)

/-- ADCB (R131). -/
def execAdcb (m : Src8) (s : State) : Host.Outcome State Fault Refusal :=
  .next (combineAcc opAdc .b m s)

/-- SUBA (R133). -/
def execSuba (m : Src8) (s : State) : Host.Outcome State Fault Refusal :=
  .next (combineAcc opSub .a m s)

/-- SUBB (R133). -/
def execSubb (m : Src8) (s : State) : Host.Outcome State Fault Refusal :=
  .next (combineAcc opSub .b m s)

/-- SBCA (R134). -/
def execSbca (m : Src8) (s : State) : Host.Outcome State Fault Refusal :=
  .next (combineAcc opSbc .a m s)

/-- SBCB (R134). -/
def execSbcb (m : Src8) (s : State) : Host.Outcome State Fault Refusal :=
  .next (combineAcc opSbc .b m s)

/-- An operation on A and B whose result goes to A: ABA and SBA (R132, R135). -/
def combineAccs (op : Byte → Byte → Flags → Byte × Flags) (s : State) : State :=
  let p := op s.a s.b s.cc
  (s.setA p.1).setCc p.2

/-- ABA: A takes A + B (R132). -/
def execAba (s : State) : Host.Outcome State Fault Refusal :=
  .next (combineAccs opAdd s)

/-- SBA: A takes A - B (R135). -/
def execSba (s : State) : Host.Outcome State Fault Refusal :=
  .next (combineAccs opSub s)

/-- CMPA (R136). -/
def execCmpa (m : Src8) (s : State) : Host.Outcome State Fault Refusal :=
  .next (compareAcc opSub .a m s)

/-- CMPB (R136). -/
def execCmpb (m : Src8) (s : State) : Host.Outcome State Fault Refusal :=
  .next (compareAcc opSub .b m s)

/-- CBA: flags of A - B (R137). -/
def execCba (s : State) : Host.Outcome State Fault Refusal :=
  .next (s.setCc (opSub s.a s.b s.cc).2)

/-- DAA: V takes a free value, drawn afresh (R139, 93_implementation_defined.md U2; log entry 8). -/
def decimalAdjust (s : State) : State :=
  let p := opDaa s.a (Config.freeBit s.draws) s.cc
  ((s.setDraws (s.draws + 1)).setA p.1).setCc p.2

/-- DAA (R139). -/
def execDaa (s : State) : Host.Outcome State Fault Refusal :=
  .next (decimalAdjust s)

/-- NEGA (R138). -/
def execNega (s : State) : Host.Outcome State Fault Refusal :=
  .next (modifyAcc opNeg .a s)

/-- NEGB (R138). -/
def execNegb (s : State) : Host.Outcome State Fault Refusal :=
  .next (modifyAcc opNeg .b s)

/-- NEG, memory form (R138). -/
def execNeg (m : AddrX) (s : State) : Host.Outcome State Fault Refusal :=
  .next (modifyMem opNeg m s)

/-- INCA (R140). -/
def execInca (s : State) : Host.Outcome State Fault Refusal :=
  .next (modifyAcc opInc .a s)

/-- INCB (R140). -/
def execIncb (s : State) : Host.Outcome State Fault Refusal :=
  .next (modifyAcc opInc .b s)

/-- INC, memory form (R140). -/
def execInc (m : AddrX) (s : State) : Host.Outcome State Fault Refusal :=
  .next (modifyMem opInc m s)

/-- DECA (R141). -/
def execDeca (s : State) : Host.Outcome State Fault Refusal :=
  .next (modifyAcc opDec .a s)

/-- DECB (R141). -/
def execDecb (s : State) : Host.Outcome State Fault Refusal :=
  .next (modifyAcc opDec .b s)

/-- DEC, memory form (R141). -/
def execDec (m : AddrX) (s : State) : Host.Outcome State Fault Refusal :=
  .next (modifyMem opDec m s)

/-- CLR on an accumulator (R142). -/
def clearAcc (r : Acc) (s : State) : State :=
  let p := opClr s.cc
  (s.setAcc r p.1).setCc p.2

/-- CLR on a memory byte: a write only, the old value is not read (R142). -/
def clearMem (m : AddrX) (s : State) : State :=
  let p := opClr s.cc
  (write8 (effAddrX m s) p.1 s).setCc p.2

/-- CLRA (R142). -/
def execClra (s : State) : Host.Outcome State Fault Refusal :=
  .next (clearAcc .a s)

/-- CLRB (R142). -/
def execClrb (s : State) : Host.Outcome State Fault Refusal :=
  .next (clearAcc .b s)

/-- CLR, memory form (R142). -/
def execClr (m : AddrX) (s : State) : Host.Outcome State Fault Refusal :=
  .next (clearMem m s)

/-- TST on an accumulator: flags only (R143). -/
def testAcc (r : Acc) (s : State) : State := s.setCc (flagsTst (s.acc r) s.cc)

/-- TST on a memory byte: one read, nothing written back (R143). -/
def testMem (m : AddrX) (s : State) : State :=
  let o := read8 (effAddrX m s) s
  o.2.setCc (flagsTst o.1 s.cc)

/-- TSTA (R143). -/
def execTsta (s : State) : Host.Outcome State Fault Refusal :=
  .next (testAcc .a s)

/-- TSTB (R143). -/
def execTstb (s : State) : Host.Outcome State Fault Refusal :=
  .next (testAcc .b s)

/-- TST, memory form (R143). -/
def execTst (m : AddrX) (s : State) : Host.Outcome State Fault Refusal :=
  .next (testMem m s)

end Sys2Proof.Machine
end

