-- ==== Sys2Proof/Machine/Branch.lean ====
section
/-! DEFINITION. The meanings of 45_branch_jump.md: branches, jumps, subroutines, software interrupt, wait.
Each meaning starts from the state after the fetch: PC is already past the instruction (40_addressing_modes.md R110). -/

namespace Sys2Proof.Machine

/-- The template of the fifteen branches (R233). -/
def branchIf (cond : Bool) (rel : Byte) (s : State) : State :=
  if cond = true then s.setPc (branchTarget rel s) else s

/-- BRA (R210). -/
def execBra (rel : Byte) (s : State) : Host.Outcome State Fault Refusal :=
  .next (branchIf true rel s)

/-- BCC (R211). -/
def execBcc (rel : Byte) (s : State) : Host.Outcome State Fault Refusal :=
  .next (branchIf (!s.cc.c) rel s)

/-- BCS (R212). -/
def execBcs (rel : Byte) (s : State) : Host.Outcome State Fault Refusal :=
  .next (branchIf s.cc.c rel s)

/-- BEQ (R213). -/
def execBeq (rel : Byte) (s : State) : Host.Outcome State Fault Refusal :=
  .next (branchIf s.cc.z rel s)

/-- BGE (R214). -/
def execBge (rel : Byte) (s : State) : Host.Outcome State Fault Refusal :=
  .next (branchIf (!(s.cc.n ^^ s.cc.v)) rel s)

/-- BGT (R215). -/
def execBgt (rel : Byte) (s : State) : Host.Outcome State Fault Refusal :=
  .next (branchIf (!(s.cc.z || (s.cc.n ^^ s.cc.v))) rel s)

/-- BHI (R216). -/
def execBhi (rel : Byte) (s : State) : Host.Outcome State Fault Refusal :=
  .next (branchIf (!(s.cc.c || s.cc.z)) rel s)

/-- BLE (R217). -/
def execBle (rel : Byte) (s : State) : Host.Outcome State Fault Refusal :=
  .next (branchIf (s.cc.z || (s.cc.n ^^ s.cc.v)) rel s)

/-- BLS (R218). -/
def execBls (rel : Byte) (s : State) : Host.Outcome State Fault Refusal :=
  .next (branchIf (s.cc.c || s.cc.z) rel s)

/-- BLT (R219). -/
def execBlt (rel : Byte) (s : State) : Host.Outcome State Fault Refusal :=
  .next (branchIf (s.cc.n ^^ s.cc.v) rel s)

/-- BMI (R220). -/
def execBmi (rel : Byte) (s : State) : Host.Outcome State Fault Refusal :=
  .next (branchIf s.cc.n rel s)

/-- BNE (R221). -/
def execBne (rel : Byte) (s : State) : Host.Outcome State Fault Refusal :=
  .next (branchIf (!s.cc.z) rel s)

/-- BVC (R222). -/
def execBvc (rel : Byte) (s : State) : Host.Outcome State Fault Refusal :=
  .next (branchIf (!s.cc.v) rel s)

/-- BVS (R223). -/
def execBvs (rel : Byte) (s : State) : Host.Outcome State Fault Refusal :=
  .next (branchIf s.cc.v rel s)

/-- BPL (R224). -/
def execBpl (rel : Byte) (s : State) : Host.Outcome State Fault Refusal :=
  .next (branchIf (!s.cc.n) rel s)

/-- Pushes the return address and goes to `target` (R225, R227). -/
def call (target : Word) (s : State) : State := (push16 s.pc s).setPc target

/-- BSR: the target is computed from the PC that is pushed (R225). -/
def execBsr (rel : Byte) (s : State) : Host.Outcome State Fault Refusal :=
  .next (call (branchTarget rel s) s)

/-- JMP: the effective address itself, nothing is read (R226). -/
def execJmp (m : AddrX) (s : State) : Host.Outcome State Fault Refusal :=
  .next (s.setPc (effAddrX m s))

/-- JSR: the effective address uses X as it is before the call (R227). -/
def execJsr (m : AddrX) (s : State) : Host.Outcome State Fault Refusal :=
  .next (call (effAddrX m s) s)

/-- NOP (R228). -/
def execNop (s : State) : Host.Outcome State Fault Refusal :=
  .next s

/-- RTS (R230). -/
def returnFromCall (s : State) : State :=
  let p := pull16 s
  p.2.setPc p.1

/-- RTS (R230). -/
def execRts (s : State) : Host.Outcome State Fault Refusal :=
  .next (returnFromCall s)

/-- RTI (R229). -/
def execRti (s : State) : Host.Outcome State Fault Refusal :=
  .next (returnFromInterrupt s)

/-- SWI: taken whatever I holds (R231, 60_exceptions.md R269). -/
def execSwi (s : State) : Host.Outcome State Fault Refusal :=
  .next (enterThrough s.params.swiVector (stackAll s))

/-- WAI: stacks, then waits (R232). -/
def execWai (s : State) : Host.Outcome State Fault Refusal :=
  .next ((stackAll s).setWaiting true)

end Sys2Proof.Machine
end

