-- ==== Sys2Proof/Machine/Ccr.lean ====
section
/-! DEFINITION. The meanings of 46_ccr.md, and of an unassigned code.
Each meaning starts from the state after the fetch: PC is already past the instruction (40_addressing_modes.md R110).
The meaning of an unassigned code starts from the state before the fetch (60_exceptions.md R277). -/

namespace Sys2Proof.Machine

/-- CLC (R250). -/
def execClc (s : State) : Host.Outcome State Fault Refusal :=
  .next (s.setCc { s.cc with c := false })

/-- CLV (R252). -/
def execClv (s : State) : Host.Outcome State Fault Refusal :=
  .next (s.setCc { s.cc with v := false })

/-- SEC (R253). -/
def execSec (s : State) : Host.Outcome State Fault Refusal :=
  .next (s.setCc { s.cc with c := true })

/-- SEI (R254). -/
def execSei (s : State) : Host.Outcome State Fault Refusal :=
  .next (s.setCc { s.cc with i := true })

/-- SEV (R255). -/
def execSev (s : State) : Host.Outcome State Fault Refusal :=
  .next (s.setCc { s.cc with v := true })

/-- The flags are written by CLI or TAP: with I_CLEAR_DELAY = 1 a change of I from 1 to 0 holds IRQ off at the next
boundary (R251, R256; 10_state.md R34). -/
def writeFlagsHoldoff (f : Flags) (s : State) : State :=
  let t := s.setCc f
  if s.params.iClearDelay = true ∧ s.cc.i = true ∧ f.i = false then t.setIrqHoldoff true else t

/-- CLI (R251). -/
def execCli (s : State) : Host.Outcome State Fault Refusal :=
  .next (writeFlagsHoldoff { s.cc with i := false } s)

/-- TAP: bits 7 and 6 of A have no effect (R256). -/
def execTap (s : State) : Host.Outcome State Fault Refusal :=
  .next (writeFlagsHoldoff (Flags.ofByte s.a) s)

/-- TPA: bits 7 and 6 of A are 1 afterwards (R257). -/
def execTpa (s : State) : Host.Outcome State Fault Refusal :=
  .next (s.setA s.cc.toByte)

/-- One of the 59 unassigned codes: the run stops, `s` being the state as before the fetch (60_exceptions.md R277;
log entry 10). -/
def execUnassigned (op : Byte) (s : State) : Host.Outcome State Fault Refusal :=
  match s.params.unassignedOpcode with
  | .fault => .fault (.unassignedOpcode op s.pc)

end Sys2Proof.Machine
end

