-- ==== Sys2Proof/Machine/IndexStack.lean ====
section
/-! DEFINITION. The meanings of 44_index_stack.md: the index register and the stack pointer.
Each meaning starts from the state after the fetch: PC is already past the instruction (40_addressing_modes.md R110). -/

namespace Sys2Proof.Machine

/-- CPX: flags only (R190). -/
def compareIndex (m : Src16) (s : State) : State :=
  let o := readSrc16 m s
  o.2.setCc (flagsCpx s.x o.1 s.params.cpxHighBorrow s.cc)

/-- CPX (R190). -/
def execCpx (m : Src16) (s : State) : Host.Outcome State Fault Refusal :=
  .next (compareIndex m s)

/-- X takes a new value and Z says whether all its 16 bits are zero (R191, R193). -/
def stepIndex (v : Word) (s : State) : State := (s.setX v).setCc { s.cc with z := decide (v = 0) }

/-- DEX (R191). -/
def execDex (s : State) : Host.Outcome State Fault Refusal :=
  .next (stepIndex (s.x - 1) s)

/-- INX (R193). -/
def execInx (s : State) : Host.Outcome State Fault Refusal :=
  .next (stepIndex (s.x + 1) s)

/-- DES: no flag, no memory access (R192). -/
def execDes (s : State) : Host.Outcome State Fault Refusal :=
  .next (s.setSp (s.sp - 1))

/-- INS: no flag, no memory access (R194). -/
def execIns (s : State) : Host.Outcome State Fault Refusal :=
  .next (s.setSp (s.sp + 1))

/-- LDX: the address is computed from the old X (R195). -/
def loadIndex (m : Src16) (s : State) : State :=
  let o := readSrc16 m s
  (o.2.setX o.1).setCc (s.cc.move16 o.1)

/-- LDS (R196). -/
def loadStackPointer (m : Src16) (s : State) : State :=
  let o := readSrc16 m s
  (o.2.setSp o.1).setCc (s.cc.move16 o.1)

/-- STX and STS: the high byte at the effective address, the low byte at the next (R197, R198). -/
def storeWord (v : Word) (m : Addr) (s : State) : State :=
  (write16 (effAddr m s) v s).setCc (s.cc.move16 v)

/-- LDX (R195). -/
def execLdx (m : Src16) (s : State) : Host.Outcome State Fault Refusal :=
  .next (loadIndex m s)

/-- LDS (R196). -/
def execLds (m : Src16) (s : State) : Host.Outcome State Fault Refusal :=
  .next (loadStackPointer m s)

/-- STX (R197). -/
def execStx (m : Addr) (s : State) : Host.Outcome State Fault Refusal :=
  .next (storeWord s.x m s)

/-- STS: the value stored is SP itself (R198). -/
def execSts (m : Addr) (s : State) : Host.Outcome State Fault Refusal :=
  .next (storeWord s.sp m s)

/-- TXS: SP takes X - 1, no flag (R199). -/
def execTxs (s : State) : Host.Outcome State Fault Refusal :=
  .next (s.setSp (s.x - 1))

/-- TSX: X takes SP + 1, no flag (R200, 90_conflicts.md C7). -/
def execTsx (s : State) : Host.Outcome State Fault Refusal :=
  .next (s.setX (s.sp + 1))

end Sys2Proof.Machine
end

