-- ==== Sys2Proof/Machine/Logic.lean ====
section
/-! DEFINITION. The meanings of 42_acc_mem_logic_shift.md: logic, complement, rotates and shifts.
Each meaning starts from the state after the fetch: PC is already past the instruction (40_addressing_modes.md R110). -/

namespace Sys2Proof.Machine

/-- ANDA (R160). -/
def execAnda (m : Src8) (s : State) : Host.Outcome State Fault Refusal :=
  .next (combineAcc opAnd .a m s)

/-- ANDB (R160). -/
def execAndb (m : Src8) (s : State) : Host.Outcome State Fault Refusal :=
  .next (combineAcc opAnd .b m s)

/-- EORA (R162). -/
def execEora (m : Src8) (s : State) : Host.Outcome State Fault Refusal :=
  .next (combineAcc opEor .a m s)

/-- EORB (R162). -/
def execEorb (m : Src8) (s : State) : Host.Outcome State Fault Refusal :=
  .next (combineAcc opEor .b m s)

/-- ORAA (R163). -/
def execOraa (m : Src8) (s : State) : Host.Outcome State Fault Refusal :=
  .next (combineAcc opOra .a m s)

/-- ORAB (R163). -/
def execOrab (m : Src8) (s : State) : Host.Outcome State Fault Refusal :=
  .next (combineAcc opOra .b m s)

/-- BITA (R161). -/
def execBita (m : Src8) (s : State) : Host.Outcome State Fault Refusal :=
  .next (compareAcc opAnd .a m s)

/-- BITB (R161). -/
def execBitb (m : Src8) (s : State) : Host.Outcome State Fault Refusal :=
  .next (compareAcc opAnd .b m s)

/-- COMA (R164). -/
def execComa (s : State) : Host.Outcome State Fault Refusal :=
  .next (modifyAcc opCom .a s)

/-- COMB (R164). -/
def execComb (s : State) : Host.Outcome State Fault Refusal :=
  .next (modifyAcc opCom .b s)

/-- COM, memory form (R164). -/
def execCom (m : AddrX) (s : State) : Host.Outcome State Fault Refusal :=
  .next (modifyMem opCom m s)

/-- ROLA (R165). -/
def execRola (s : State) : Host.Outcome State Fault Refusal :=
  .next (modifyAcc opRol .a s)

/-- ROLB (R165). -/
def execRolb (s : State) : Host.Outcome State Fault Refusal :=
  .next (modifyAcc opRol .b s)

/-- ROL, memory form (R165). -/
def execRol (m : AddrX) (s : State) : Host.Outcome State Fault Refusal :=
  .next (modifyMem opRol m s)

/-- RORA (R166). -/
def execRora (s : State) : Host.Outcome State Fault Refusal :=
  .next (modifyAcc opRor .a s)

/-- RORB (R166). -/
def execRorb (s : State) : Host.Outcome State Fault Refusal :=
  .next (modifyAcc opRor .b s)

/-- ROR, memory form (R166). -/
def execRor (m : AddrX) (s : State) : Host.Outcome State Fault Refusal :=
  .next (modifyMem opRor m s)

/-- ASLA (R167). -/
def execAsla (s : State) : Host.Outcome State Fault Refusal :=
  .next (modifyAcc opAsl .a s)

/-- ASLB (R167). -/
def execAslb (s : State) : Host.Outcome State Fault Refusal :=
  .next (modifyAcc opAsl .b s)

/-- ASL, memory form (R167). -/
def execAsl (m : AddrX) (s : State) : Host.Outcome State Fault Refusal :=
  .next (modifyMem opAsl m s)

/-- ASRA (R168). -/
def execAsra (s : State) : Host.Outcome State Fault Refusal :=
  .next (modifyAcc opAsr .a s)

/-- ASRB (R168). -/
def execAsrb (s : State) : Host.Outcome State Fault Refusal :=
  .next (modifyAcc opAsr .b s)

/-- ASR, memory form (R168). -/
def execAsr (m : AddrX) (s : State) : Host.Outcome State Fault Refusal :=
  .next (modifyMem opAsr m s)

/-- LSRA (R169). -/
def execLsra (s : State) : Host.Outcome State Fault Refusal :=
  .next (modifyAcc opLsr .a s)

/-- LSRB (R169). -/
def execLsrb (s : State) : Host.Outcome State Fault Refusal :=
  .next (modifyAcc opLsr .b s)

/-- LSR, memory form (R169). -/
def execLsr (m : AddrX) (s : State) : Host.Outcome State Fault Refusal :=
  .next (modifyMem opLsr m s)

end Sys2Proof.Machine
end

