-- ==== Sys2Proof/Machine/Move.lean ====
section
/-! DEFINITION. The meanings of 43_acc_mem_move.md: load, store, push, pull, transfer.
Each meaning starts from the state after the fetch: PC is already past the instruction (40_addressing_modes.md R110). -/

namespace Sys2Proof.Machine

/-- LDAA (R180). -/
def execLdaa (m : Src8) (s : State) : Host.Outcome State Fault Refusal :=
  .next (combineAcc opLda .a m s)

/-- LDAB (R180). -/
def execLdab (m : Src8) (s : State) : Host.Outcome State Fault Refusal :=
  .next (combineAcc opLda .b m s)

/-- STA: one write, no read of the destination; N and Z from the stored value (R181). -/
def storeAcc (r : Acc) (m : Addr) (s : State) : State :=
  (write8 (effAddr m s) (s.acc r) s).setCc (s.cc.move8 (s.acc r))

/-- STAA (R181). -/
def execStaa (m : Addr) (s : State) : Host.Outcome State Fault Refusal :=
  .next (storeAcc .a m s)

/-- STAB (R181). -/
def execStab (m : Addr) (s : State) : Host.Outcome State Fault Refusal :=
  .next (storeAcc .b m s)

/-- PSHA (R182). -/
def execPsha (s : State) : Host.Outcome State Fault Refusal :=
  .next (push8 (s.acc .a) s)

/-- PSHB (R182). -/
def execPshb (s : State) : Host.Outcome State Fault Refusal :=
  .next (push8 (s.acc .b) s)

/-- PUL: no flag is written (R183). -/
def pullAcc (r : Acc) (s : State) : State :=
  let p := pull8 s
  p.2.setAcc r p.1

/-- PULA (R183). -/
def execPula (s : State) : Host.Outcome State Fault Refusal :=
  .next (pullAcc .a s)

/-- PULB (R183). -/
def execPulb (s : State) : Host.Outcome State Fault Refusal :=
  .next (pullAcc .b s)

/-- TAB (R184). -/
def execTab (s : State) : Host.Outcome State Fault Refusal :=
  .next ((s.setB s.a).setCc (s.cc.move8 s.a))

/-- TBA (R185). -/
def execTba (s : State) : Host.Outcome State Fault Refusal :=
  .next ((s.setA s.b).setCc (s.cc.move8 s.b))

end Sys2Proof.Machine
end

