-- ==== Sys2Proof/Machine/Dispatch.lean ====
section
/-! DEFINITION. What one instruction does: one arm per constructor of Instr. -/

namespace Sys2Proof.Machine

def exec (i : Instr) (s : State) : Host.Outcome State Fault Refusal :=
  match i with
  | .nop => Sys2Proof.Machine.execNop s
  | .tap => Sys2Proof.Machine.execTap s
  | .tpa => Sys2Proof.Machine.execTpa s
  | .inx => Sys2Proof.Machine.execInx s
  | .dex => Sys2Proof.Machine.execDex s
  | .clv => Sys2Proof.Machine.execClv s
  | .sev => Sys2Proof.Machine.execSev s
  | .clc => Sys2Proof.Machine.execClc s
  | .sec => Sys2Proof.Machine.execSec s
  | .cli => Sys2Proof.Machine.execCli s
  | .sei => Sys2Proof.Machine.execSei s
  | .sba => Sys2Proof.Machine.execSba s
  | .cba => Sys2Proof.Machine.execCba s
  | .tab => Sys2Proof.Machine.execTab s
  | .tba => Sys2Proof.Machine.execTba s
  | .daa => Sys2Proof.Machine.execDaa s
  | .aba => Sys2Proof.Machine.execAba s
  | .bra rel => Sys2Proof.Machine.execBra rel s
  | .bhi rel => Sys2Proof.Machine.execBhi rel s
  | .bls rel => Sys2Proof.Machine.execBls rel s
  | .bcc rel => Sys2Proof.Machine.execBcc rel s
  | .bcs rel => Sys2Proof.Machine.execBcs rel s
  | .bne rel => Sys2Proof.Machine.execBne rel s
  | .beq rel => Sys2Proof.Machine.execBeq rel s
  | .bvc rel => Sys2Proof.Machine.execBvc rel s
  | .bvs rel => Sys2Proof.Machine.execBvs rel s
  | .bpl rel => Sys2Proof.Machine.execBpl rel s
  | .bmi rel => Sys2Proof.Machine.execBmi rel s
  | .bge rel => Sys2Proof.Machine.execBge rel s
  | .blt rel => Sys2Proof.Machine.execBlt rel s
  | .bgt rel => Sys2Proof.Machine.execBgt rel s
  | .ble rel => Sys2Proof.Machine.execBle rel s
  | .tsx => Sys2Proof.Machine.execTsx s
  | .ins => Sys2Proof.Machine.execIns s
  | .pula => Sys2Proof.Machine.execPula s
  | .pulb => Sys2Proof.Machine.execPulb s
  | .des => Sys2Proof.Machine.execDes s
  | .txs => Sys2Proof.Machine.execTxs s
  | .psha => Sys2Proof.Machine.execPsha s
  | .pshb => Sys2Proof.Machine.execPshb s
  | .rts => Sys2Proof.Machine.execRts s
  | .rti => Sys2Proof.Machine.execRti s
  | .wai => Sys2Proof.Machine.execWai s
  | .swi => Sys2Proof.Machine.execSwi s
  | .nega => Sys2Proof.Machine.execNega s
  | .coma => Sys2Proof.Machine.execComa s
  | .lsra => Sys2Proof.Machine.execLsra s
  | .rora => Sys2Proof.Machine.execRora s
  | .asra => Sys2Proof.Machine.execAsra s
  | .asla => Sys2Proof.Machine.execAsla s
  | .rola => Sys2Proof.Machine.execRola s
  | .deca => Sys2Proof.Machine.execDeca s
  | .inca => Sys2Proof.Machine.execInca s
  | .tsta => Sys2Proof.Machine.execTsta s
  | .clra => Sys2Proof.Machine.execClra s
  | .negb => Sys2Proof.Machine.execNegb s
  | .comb => Sys2Proof.Machine.execComb s
  | .lsrb => Sys2Proof.Machine.execLsrb s
  | .rorb => Sys2Proof.Machine.execRorb s
  | .asrb => Sys2Proof.Machine.execAsrb s
  | .aslb => Sys2Proof.Machine.execAslb s
  | .rolb => Sys2Proof.Machine.execRolb s
  | .decb => Sys2Proof.Machine.execDecb s
  | .incb => Sys2Proof.Machine.execIncb s
  | .tstb => Sys2Proof.Machine.execTstb s
  | .clrb => Sys2Proof.Machine.execClrb s
  | .neg m => Sys2Proof.Machine.execNeg m s
  | .com m => Sys2Proof.Machine.execCom m s
  | .lsr m => Sys2Proof.Machine.execLsr m s
  | .ror m => Sys2Proof.Machine.execRor m s
  | .asr m => Sys2Proof.Machine.execAsr m s
  | .asl m => Sys2Proof.Machine.execAsl m s
  | .rol m => Sys2Proof.Machine.execRol m s
  | .dec m => Sys2Proof.Machine.execDec m s
  | .inc m => Sys2Proof.Machine.execInc m s
  | .tst m => Sys2Proof.Machine.execTst m s
  | .jmp m => Sys2Proof.Machine.execJmp m s
  | .clr m => Sys2Proof.Machine.execClr m s
  | .suba m => Sys2Proof.Machine.execSuba m s
  | .cmpa m => Sys2Proof.Machine.execCmpa m s
  | .sbca m => Sys2Proof.Machine.execSbca m s
  | .anda m => Sys2Proof.Machine.execAnda m s
  | .bita m => Sys2Proof.Machine.execBita m s
  | .ldaa m => Sys2Proof.Machine.execLdaa m s
  | .eora m => Sys2Proof.Machine.execEora m s
  | .adca m => Sys2Proof.Machine.execAdca m s
  | .oraa m => Sys2Proof.Machine.execOraa m s
  | .adda m => Sys2Proof.Machine.execAdda m s
  | .cpx m => Sys2Proof.Machine.execCpx m s
  | .bsr rel => Sys2Proof.Machine.execBsr rel s
  | .lds m => Sys2Proof.Machine.execLds m s
  | .staa m => Sys2Proof.Machine.execStaa m s
  | .sts m => Sys2Proof.Machine.execSts m s
  | .jsr m => Sys2Proof.Machine.execJsr m s
  | .subb m => Sys2Proof.Machine.execSubb m s
  | .cmpb m => Sys2Proof.Machine.execCmpb m s
  | .sbcb m => Sys2Proof.Machine.execSbcb m s
  | .andb m => Sys2Proof.Machine.execAndb m s
  | .bitb m => Sys2Proof.Machine.execBitb m s
  | .ldab m => Sys2Proof.Machine.execLdab m s
  | .eorb m => Sys2Proof.Machine.execEorb m s
  | .adcb m => Sys2Proof.Machine.execAdcb m s
  | .orab m => Sys2Proof.Machine.execOrab m s
  | .addb m => Sys2Proof.Machine.execAddb m s
  | .ldx m => Sys2Proof.Machine.execLdx m s
  | .stab m => Sys2Proof.Machine.execStab m s
  | .stx m => Sys2Proof.Machine.execStx m s
  | .unassigned op => Sys2Proof.Machine.execUnassigned op s

end Sys2Proof.Machine
end

