-- ==== Sys2Proof/Machine/Fetch.lean ====
section
/-! DEFINITION. Fetching one instruction: 40_addressing_modes.md R110. -/

namespace Sys2Proof.Machine

/-- The operand byte at `a` when the format has it; no access is made when it has not (30_encoding.md R82). -/
def fetchOperand (wanted : Bool) (a : Word) (s : State) : Byte × State :=
  if wanted = true then read8 a s else (0, s)

/-- Fetches the instruction at PC: the opcode, then the operand bytes its format has; PC is advanced past them mod 2^16
and the instruction's cycles are counted. On an unassigned code the state is the one before the fetch
(60_exceptions.md R277). -/
def fetch (s : State) : Instr × State :=
  let op := read8 s.pc s
  let n := opLength op.1
  let b1 := fetchOperand (decide (2 ≤ n)) (s.pc + 1) op.2
  let b2 := fetchOperand (decide (3 ≤ n)) (s.pc + 2) b1.2
  match decodeOp op.1 b1.1 b2.1 with
  | .unassigned op => (.unassigned op, s)
  | i => (i, (b2.2.setPc (s.pc + BitVec.ofNat 16 n)).setCycles (s.cycles + instrCycles i))

end Sys2Proof.Machine
end

