-- ==== Sys2Proof/Machine/Run.lean ====
section
/-! DEFINITION. The last part of the step: the fetch, the end-of-run tests and the instruction
(60_exceptions.md R266, 70_reset_and_hazards.md R311). -/

namespace Sys2Proof.Machine

/-- The fetched instruction is one of the 59 unassigned codes. -/
def isUnassigned (i : Instr) : Bool :=
  match i with
  | .unassigned _ => true
  | _ => false

/-- The end of run that the host asked for, if it is reached at `addr` with this instruction fetched. A run ends at the
first of the table's ends, and the fault of an unassigned code stands first in it, so at such a code neither of these
two is the end: exec reports the fault (R311; DEDUCED, log entry 9). -/
def endOfRun (addr : Word) (p : Instr × State) : Option Fault :=
  if isUnassigned p.1 = true then none
  else if p.2.params.stopAddress = some addr then some (.stopAt addr)
  else if p.2.params.stopOnSwi = true ∧ p.1 = .swi then some (.stopOnSwi addr)
  else none

/-- What is done with the instruction fetched at `addr`: the run ends before it, or it is executed. -/
def executeFetched (addr : Word) (p : Instr × State) : Host.Outcome State Fault Refusal :=
  match endOfRun addr p with
  | some e => .fault e
  | none => exec p.1 p.2

/-- One instruction is fetched, and executed unless the run ends before it. -/
def runInstruction (s : State) : Host.Outcome State Fault Refusal := executeFetched s.pc (fetch s)

end Sys2Proof.Machine
end

