-- ==== Sys2Proof/Machine/Step.lean ====
section
/-! DEFINITION. One step of the machine: `Step()` of 60_exceptions.md R266. -/

namespace Sys2Proof.Machine

/-- One step. -/
def step (s : State) : Host.Outcome State Fault Refusal :=
  match boundary s with
  | .reset => .next (resetSequence (beginStep s))
  | .halt => .next (beginStep s)
  | .nmi => .next (acceptNmi (beginStep s))
  | .irq => .next (acceptIrq (beginStep s))
  | .wait => .next (endHoldoff (beginStep s))
  | .instruction => runInstruction (endHoldoff (beginStep s))

/-- Stores the bytes of a table word where the next instruction is fetched, at PC and the two addresses after it mod
2^16, the first byte at PC (30_encoding.md R81). It stands for the loading of a program from outside (log entry 18). -/
def State.withFetchWord (s : State) (nbits w : Nat) : State :=
  let v := tableBits nbits w
  s.setMem (Memory.set (Memory.set (Memory.set s.mem s.pc.toNat (tableByte v 0))
    (s.pc + 1).toNat (tableByte v 1)) (s.pc + 2).toNat (tableByte v 2))

end Sys2Proof.Machine
end

