-- ==== Sys2Proof/Machine/HostMoves.lean ====
section
/-! DEFINITION. What the host may do to the machine between two steps, and what it sees of it: 60_exceptions.md R262,
R285; 20_memory.md R66. -/

namespace Sys2Proof.Machine

/-- One move of the host. -/
inductive HostMove where
  /-- Drives the RESET input. -/
  | resetLine (active : Bool)
  /-- Drives the IRQ input; low requests. -/
  | irqLine (low : Bool)
  /-- Drives the HALT input. -/
  | haltLine (active : Bool)
  /-- A high-to-low transition of the NMI input (R268). -/
  | nmiRequest
  /-- An external bus master writes a byte (20_memory.md R66). -/
  | dmaWrite (addr : Word) (value : Byte)
  deriving DecidableEq, Repr

/-- A move changes an input, the NMI latch or a byte of RAM, never a processor register. The memory map and the
contents of ROM are fixed for the run (70_reset_and_hazards.md R312). -/
def applyHostMove (mv : HostMove) (s : State) : State :=
  match mv with
  | .resetLine active => s.setResetActive active
  | .irqLine low => s.setIrqLow low
  | .haltLine active => s.setHalted active
  | .nmiRequest => s.setNmiPending true
  | .dmaWrite a v => if s.kindAt a = .ram then s.setMem (Memory.set s.mem a.toNat v) else s

/-- The moves the host makes between two steps, first to last. -/
def applyHostMoves (mvs : List HostMove) (s : State) : State :=
  match mvs with
  | [] => s
  | mv :: rest => applyHostMoves rest (applyHostMove mv s)

/-- One step after the host's moves. External agents act only here, between two steps, never between the read and the
write of one instruction, the two bytes of a 16-bit access or the bytes of a frame: no source promises that
(20_memory.md R62, 92_eei_decisions.md D21, 93_implementation_defined.md U17). It is the model's choice, UNSAFE, erring
toward proving: log entry 19. -/
def hostStep (mvs : List HostMove) (s : State) : Host.Outcome State Fault Refusal := step (applyHostMoves mvs s)

/-! ### A run under a schedule, and its ends -/

/-- The move can end a wait in which the interrupt mask is `masked`: RESET, NMI, and IRQ when it is not masked
(60_exceptions.md R273). -/
def wakes (masked : Bool) (mv : HostMove) : Bool :=
  match mv with
  | .resetLine active => active
  | .irqLine low => low && !masked
  | .haltLine _ => false
  | .nmiRequest => true
  | .dmaWrite _ _ => false

/-- `StuckWaiting` (70_reset_and_hazards.md R311): the machine waits, nothing requested now ends the wait, and no move
the host will still make does. -/
def stuckWaiting (schedule : List (List HostMove)) (s : State) : Bool :=
  s.waiting && !s.resetActive && !s.nmiPending && (s.cc.i || !s.irqLow) &&
    schedule.all fun mvs => mvs.all fun mv => !wakes s.cc.i mv

/-- How a run under a schedule comes out, with the state that R311 has reported. -/
inductive RunEnd where
  /-- An unassigned code, STOP_ADDRESS or StopOnSWI: the state as before the fetch. -/
  | stopped (reason : Fault) (s : State)
  /-- The machine waits and nothing will wake it: the state with the frame of WAI on the stack. -/
  | stuckWaiting (s : State)
  /-- An instruction without a meaning; no instruction of this model is one. -/
  | refused (reason : Refusal) (s : State)
  /-- None of the ends is reached in the steps of the schedule. -/
  | unfinished (s : State)
  deriving DecidableEq, Repr

/-- A run: one step for each entry of the schedule, after that entry's moves, to the first of the ends of
70_reset_and_hazards.md R311. The schedule is all the host will ever do: after its last entry the host makes no move
(log entry 9). -/
def runSchedule (schedule : List (List HostMove)) (s : State) : RunEnd :=
  if stuckWaiting schedule s = true then .stuckWaiting s
  else
    match schedule with
    | [] => .unfinished s
    | mvs :: rest =>
      match hostStep mvs s with
      | .next t => runSchedule rest t
      | .fault e => .stopped e (endHoldoff (beginStep (applyHostMoves mvs s)))
      | .refused r => .refused r (endHoldoff (beginStep (applyHostMoves mvs s)))

/-- The output BA is high: the buses are free for another master (60_exceptions.md R273, R281). -/
def baHigh (s : State) : Bool := s.waiting || s.halted

end Sys2Proof.Machine
end

