-- ==== Sys2Proof/Safety.lean ====
section
/-! DEFINITION. What counts as a safe run, and the terms the claims are stated in. -/

namespace Sys2Proof.Safety

open Sys2Proof.Machine

/-! ### Safe runs, stuck runs, the premises on the host -/

/-- The outcome is not the fault on an unassigned code: what a claim about a program must show of every step
(30_encoding.md R86). The two stops the host asks for are ends of a run, not unsafe (70_reset_and_hazards.md R311). -/
def SafeOutcome : Host.Outcome State Fault Refusal → Prop
  | .next _ => True
  | .fault (.unassignedOpcode _ _) => False
  | .fault (.stopAt _) => True
  | .fault (.stopOnSwi _) => True
  | .refused _ => False

/-- No unassigned code is fetched in the next `k` steps. -/
def SafeFor (k : Nat) (s : State) : Prop := SafeOutcome (Host.Core.run Sys2Proof.core k s)

/-- `StuckWaiting` (70_reset_and_hazards.md R311), `schedule` being all that the host will still do: the machine waits,
no RESET or NMI is there or to come, and IRQ is masked or neither low nor to be pulled low. -/
def StuckWaiting (schedule : List (List HostMove)) (s : State) : Prop :=
  s.waiting = true ∧ s.resetActive = false ∧ s.nmiPending = false ∧
    (s.cc.i = true ∨ (s.irqLow = false ∧ ∀ mvs ∈ schedule, HostMove.irqLine true ∉ mvs)) ∧
    ∀ mvs ∈ schedule, HostMove.nmiRequest ∉ mvs ∧ HostMove.resetLine true ∉ mvs

/-- The instructions that load SP (70_reset_and_hazards.md R303 step 5). -/
def loadsStackPointer (i : Instr) : Bool :=
  match i with
  | .lds _ => true
  | .txs => true
  | _ => false

/-- Whether SP counts as loaded after a step from `s`, `loaded` saying whether it did before. -/
def loadedAfter (loaded : Bool) (s : State) : Bool :=
  match boundary s with
  | .reset => false
  | .instruction => loaded || loadsStackPointer (fetch s).1
  | _ => loaded

/-- The premise on the host of 70_reset_and_hazards.md R303 and R312: along a schedule of moves, one list before each
step, no NMI request comes before LDS or TXS has executed. -/
def KeepsNmiPremise (loaded : Bool) (schedule : List (List HostMove)) (s : State) : Prop :=
  match schedule with
  | [] => True
  | mvs :: rest =>
    (loaded = true ∨ HostMove.nmiRequest ∉ mvs) ∧
      match hostStep mvs s with
      | .next t => KeepsNmiPremise (loadedAfter loaded (applyHostMoves mvs s)) rest t
      | _ => True

/-! ### The invariant -/

/-- Memory is in canonical form, and the IRQ holdoff is never set while I_CLEAR_DELAY is 0 (10_state.md R34). -/
def MachineInv (s : State) : Prop :=
  Memory.wf s.mem = true ∧ (s.irqHoldoff = true → s.params.iClearDelay = true)

/-! ### Completion and frames -/

/-- The instruction answers a next state, and that state is as `P` says. -/
def Completes (i : Instr) (s : State) (P : State → Prop) : Prop := ∃ t, exec i s = .next t ∧ P t

/-- The hidden state, the inputs, the parameters and the cycle count are unchanged. -/
def KeepsSystem (s t : State) : Prop :=
  t.waiting = s.waiting ∧ t.nmiPending = s.nmiPending ∧ t.irqHoldoff = s.irqHoldoff ∧ t.halted = s.halted ∧
    t.irqLow = s.irqLow ∧ t.resetActive = s.resetActive ∧ t.params = s.params ∧ t.cycles = s.cycles

/-- Every byte of memory reads as before. -/
def KeepsMemory (s t : State) : Prop := ∀ c, t.peek c = s.peek c

/-- The byte `v` is stored at `a` where that is RAM, and every other byte of memory reads as before. -/
def StoresByte (s t : State) (a : Word) (v : Byte) : Prop :=
  (s.kindAt a = .ram → t.peek a = v) ∧ ∀ c, (c ≠ a ∨ s.kindAt a ≠ .ram) → t.peek c = s.peek c

/-- The bytes listed are stored, each where its address is RAM, and every other byte of memory reads as before. The
addresses listed differ from each other in every use. -/
def StoresBytes (s t : State) (l : List (Word × Byte)) : Prop :=
  (∀ e ∈ l, s.kindAt e.1 = .ram → t.peek e.1 = e.2) ∧
    ∀ c, ((∀ e ∈ l, e.1 ≠ c) ∨ s.kindAt c ≠ .ram) → t.peek c = s.peek c

/-- The accesses made after those `s` records. -/
def Accesses (s t : State) (l : List BusAccess) : Prop := t.bus = s.bus ++ l

/-- The registers other than the accumulators and the flags are unchanged. -/
def KeepsPointers (s t : State) : Prop := t.x = s.x ∧ t.sp = s.sp ∧ t.pc = s.pc

/-- The accumulator that is not `r`. -/
def other (r : Acc) : Acc :=
  match r with
  | .a => .b
  | .b => .a

/-! ### Encodings: opcode and cycles of each form -/

/-- A one-byte instruction. -/
def EncodesInh (i : Instr) (op : Byte) (cy : Nat) : Prop := encode i = [op] ∧ instrCycles i = cy

/-- A branch. -/
def EncodesRel (f : Byte → Instr) (op : Byte) (cy : Nat) : Prop :=
  ∀ v, encode (f v) = [op, v] ∧ instrCycles (f v) = cy

/-- The indexed and extended forms. -/
def EncodesAddrX (f : AddrX → Instr) (idx : Byte) (ci : Nat) (ext : Byte) (ce : Nat) : Prop :=
  (∀ o, encode (f (.idx o)) = [idx, o] ∧ instrCycles (f (.idx o)) = ci) ∧
    ∀ h l, encode (f (.ext (wordOf h l))) = [ext, h, l] ∧ instrCycles (f (.ext (wordOf h l))) = ce

/-- The direct, indexed and extended forms. -/
def EncodesAddr (f : Addr → Instr) (dir : Byte) (cd : Nat) (idx : Byte) (ci : Nat) (ext : Byte) (ce : Nat) : Prop :=
  (∀ v, encode (f (.dir v)) = [dir, v] ∧ instrCycles (f (.dir v)) = cd) ∧
    (∀ o, encode (f (.idx o)) = [idx, o] ∧ instrCycles (f (.idx o)) = ci) ∧
    ∀ h l, encode (f (.ext (wordOf h l))) = [ext, h, l] ∧ instrCycles (f (.ext (wordOf h l))) = ce

/-- The immediate, direct, indexed and extended forms of a dual-operand instruction. -/
def EncodesSrc8 (f : Src8 → Instr) (imm dir idx ext : Byte) : Prop :=
  (∀ v, encode (f (.imm v)) = [imm, v] ∧ instrCycles (f (.imm v)) = 2) ∧
    EncodesAddr (fun m => f (.mem m)) dir 3 idx 5 ext 4

/-- The immediate, direct, indexed and extended forms of CPX, LDS and LDX. -/
def EncodesSrc16 (f : Src16 → Instr) (imm dir idx ext : Byte) : Prop :=
  (∀ h l, encode (f (.imm (wordOf h l))) = [imm, h, l] ∧ instrCycles (f (.imm (wordOf h l))) = 3) ∧
    EncodesAddr (fun m => f (.mem m)) dir 4 idx 6 ext 5

/-! ### Flags after an operation, `f` before and `g` after -/

/-- After an addition of `x`, `y` and `cin` with result `r`: H, N, Z, V, C written, I kept (00_scope.md R8 ADD8). -/
def SumFlags (x y : Byte) (cin : Bool) (r : Byte) (f g : Flags) : Prop :=
  (g.h = true ↔ 16 ≤ x.toNat % 16 + y.toNat % 16 + cin.toNat) ∧ g.n = r.getLsbD 7 ∧ (g.z = true ↔ r = 0) ∧
    (g.v = true ↔ (x.getLsbD 7 = y.getLsbD 7 ∧ r.getLsbD 7 ≠ x.getLsbD 7)) ∧
    (g.c = true ↔ 256 ≤ x.toNat + y.toNat + cin.toNat) ∧ g.i = f.i

/-- After a subtraction `x - y - bin` with result `r`: N, Z, V, C written, H and I kept (00_scope.md R8 SUB8). -/
def DiffFlags (x y : Byte) (bin : Bool) (r : Byte) (f g : Flags) : Prop :=
  g.n = r.getLsbD 7 ∧ (g.z = true ↔ r = 0) ∧
    (g.v = true ↔ (x.getLsbD 7 ≠ y.getLsbD 7 ∧ r.getLsbD 7 ≠ x.getLsbD 7)) ∧
    (g.c = true ↔ x.toNat < y.toNat + bin.toNat) ∧ g.h = f.h ∧ g.i = f.i

/-- N and Z from the value, V cleared, C, H and I kept. -/
def MoveFlags8 (r : Byte) (f g : Flags) : Prop :=
  g.n = r.getLsbD 7 ∧ (g.z = true ↔ r = 0) ∧ g.v = false ∧ g.c = f.c ∧ g.h = f.h ∧ g.i = f.i

/-- N from bit 15 and Z from all 16 bits, V cleared, C, H and I kept. -/
def MoveFlags16 (r : Word) (f g : Flags) : Prop :=
  g.n = r.getLsbD 15 ∧ (g.z = true ↔ r = 0) ∧ g.v = false ∧ g.c = f.c ∧ g.h = f.h ∧ g.i = f.i

/-- After a shift or rotate with result `r` and bit `c` shifted out: V is N xor C; H and I kept. -/
def ShiftFlags (r : Byte) (c : Bool) (f g : Flags) : Prop :=
  g.n = r.getLsbD 7 ∧ (g.z = true ↔ r = 0) ∧ g.c = c ∧ (g.v = true ↔ g.n ≠ g.c) ∧ g.h = f.h ∧ g.i = f.i

/-! ### Shapes of instruction claims -/

/-- The accumulator `r` takes `v`; of the rest, the flags are as `F` says and everything else is as after reading the
operand `m`. -/
def AccTakes (r : Acc) (m : Src8) (v : Byte) (F : Flags → Prop) (s t : State) : Prop :=
  t.acc r = v ∧ t.acc (other r) = s.acc (other r) ∧ KeepsPointers s t ∧ F t.cc ∧ KeepsSystem s t ∧ KeepsMemory s t ∧
    t.bus = (readSrc8 m s).2.bus ∧ t.draws = (readSrc8 m s).2.draws

/-- Only the flags change, apart from the reading of the operand `m`. -/
def OnlyFlags (m : Src8) (F : Flags → Prop) (s t : State) : Prop :=
  t.a = s.a ∧ t.b = s.b ∧ KeepsPointers s t ∧ F t.cc ∧ KeepsSystem s t ∧ KeepsMemory s t ∧
    t.bus = (readSrc8 m s).2.bus ∧ t.draws = (readSrc8 m s).2.draws

/-- An instruction on an accumulator alone: it takes `v`, no access is made. -/
def AccBecomes (r : Acc) (v : Byte) (F : Flags → Prop) (s t : State) : Prop :=
  t.acc r = v ∧ t.acc (other r) = s.acc (other r) ∧ KeepsPointers s t ∧ F t.cc ∧ KeepsSystem s t ∧ KeepsMemory s t ∧
    t.bus = s.bus ∧ t.draws = s.draws

/-- A read-modify-write of the byte at the effective address of `m`: the byte read there becomes `v` of it. -/
def ByteBecomes (m : AddrX) (v : Byte → Byte) (F : Byte → Flags → Prop) (s t : State) : Prop :=
  let ea := effAddrX m s
  let o := (read8 ea s).1
  StoresByte s t ea (v o) ∧ Accesses s t [.read ea o, .write ea (v o)] ∧ F o t.cc ∧ t.a = s.a ∧ t.b = s.b ∧
    KeepsPointers s t ∧ KeepsSystem s t ∧ t.draws = (read8 ea s).2.draws

/-- A single-operand instruction in its accumulator and memory forms: the operand `o` becomes `v o f`, `f` the flags
before, and the flags after are as `F o f` says. -/
def Modifies (ia ib : Instr) (im : AddrX → Instr) (v : Byte → Flags → Byte) (F : Byte → Flags → Flags → Prop) : Prop :=
  (∀ s, Completes ia s (AccBecomes .a (v s.a s.cc) (F s.a s.cc) s)) ∧
    (∀ s, Completes ib s (AccBecomes .b (v s.b s.cc) (F s.b s.cc) s)) ∧
    ∀ s m, Completes (im m) s (ByteBecomes m (fun o => v o s.cc) (fun o => F o s.cc) s)

/-- A dual-operand instruction on A and on B: accumulator `x` and operand `y` give `v x y f`. -/
def Combines (ia ib : Src8 → Instr) (v : Byte → Byte → Flags → Byte) (F : Byte → Byte → Flags → Flags → Prop) : Prop :=
  (∀ s m, Completes (ia m) s (AccTakes .a m (v s.a (readSrc8 m s).1 s.cc) (F s.a (readSrc8 m s).1 s.cc) s)) ∧
    ∀ s m, Completes (ib m) s (AccTakes .b m (v s.b (readSrc8 m s).1 s.cc) (F s.b (readSrc8 m s).1 s.cc) s)

/-- A dual-operand instruction on A and on B whose result is discarded. -/
def Compares (ia ib : Src8 → Instr) (F : Byte → Byte → Flags → Flags → Prop) : Prop :=
  (∀ s m, Completes (ia m) s (OnlyFlags m (F s.a (readSrc8 m s).1 s.cc) s)) ∧
    ∀ s m, Completes (ib m) s (OnlyFlags m (F s.b (readSrc8 m s).1 s.cc) s)

/-- The four bits N Z V C as a number, as 45_branch_jump.md writes them. -/
def nzvc (f : Flags) : Nat := 8 * f.n.toNat + 4 * f.z.toNat + 2 * f.v.toNat + f.c.toNat

/-- A branch taken exactly for the listed values of N Z V C: PC takes the target or stays, and nothing else changes. -/
def Branches (f : Byte → Instr) (taken : List Nat) : Prop :=
  ∀ s rel, exec (f rel) s =
    .next { s with pc := if nzvc s.cc ∈ taken then s.pc + rel.signExtend 16 else s.pc }

/-! ### Stack frames -/

/-- The seven bytes of an interrupt frame, in the order they are pushed (60_exceptions.md R264, R265). -/
def frameBytes (s : State) : List (Word × Byte) :=
  [(s.sp, lo8 s.pc), (s.sp - 1, hi8 s.pc), (s.sp - 2, lo8 s.x), (s.sp - 3, hi8 s.x), (s.sp - 4, s.a), (s.sp - 5, s.b),
    (s.sp - 6, s.cc.toByte)]

/-- The accesses of a vector fetch from the state `u`. -/
def vectorReads (v : Word) (u : State) : List BusAccess :=
  [.read v (hi8 (read16 v u).1), .read (v + 1) (lo8 (read16 v u).1)]

/-- `n` bytes read one after the other from ascending addresses, and the state after. -/
def readRun (n : Nat) (a : Word) (s : State) : List Byte × State :=
  match n with
  | 0 => ([], s)
  | k + 1 => ((read8 a s).1 :: (readRun k (a + 1) (read8 a s).2).1, (readRun k (a + 1) (read8 a s).2).2)

/-- The accesses of `n` reads from ascending addresses that give the bytes held. -/
def heldReads (n : Nat) (a : Word) (s : State) : List BusAccess :=
  (List.range n).map fun k => .read (a + BitVec.ofNat 16 k) (s.peek (a + BitVec.ofNat 16 k))

/-! ### Boundaries -/

/-- Nothing comes before the next instruction: no RESET, HALT, NMI, accepted IRQ or wait (60_exceptions.md R266). -/
def AtFetch (s : State) : Prop :=
  s.resetActive = false ∧ s.halted = false ∧ s.nmiPending = false ∧
    (s.irqLow = false ∨ s.cc.i = true ∨ (s.params.iClearDelay = true ∧ s.irqHoldoff = true)) ∧ s.waiting = false

/-- The byte at `a` is one the memory holds: RAM or ROM. -/
def Held (s : State) (a : Word) : Prop := s.kindAt a = .ram ∨ s.kindAt a = .rom

/-- The accesses of fetching `n` bytes at PC from memory that holds them. -/
def fetchReads (s : State) (n : Nat) : List BusAccess :=
  [BusAccess.read s.pc (s.peek s.pc), .read (s.pc + 1) (s.peek (s.pc + 1)), .read (s.pc + 2) (s.peek (s.pc + 2))].take n

/-- An entry through `vector` at a boundary: `t` is the state after it (60_exceptions.md R264, R271, R273, R275). -/
def Enters (vector : Word) (s t : State) : Prop :=
  t.a = s.a ∧ t.b = s.b ∧ t.x = s.x ∧ t.cc = { s.cc with i := true } ∧ t.waiting = false ∧ t.irqHoldoff = false ∧
    t.halted = s.halted ∧ t.irqLow = s.irqLow ∧ t.resetActive = s.resetActive ∧ t.params = s.params ∧
    (s.waiting = false → t.sp = s.sp - 7 ∧ StoresBytes s t (frameBytes s) ∧ t.pc = (read16 vector (stackAll s)).1 ∧
      t.bus = (frameBytes s).map (fun e => .write e.1 e.2) ++ vectorReads vector (stackAll s) ∧
      t.cycles = s.cycles + 12) ∧
    (s.waiting = true → t.sp = s.sp ∧ KeepsMemory s t ∧ t.pc = (read16 vector s).1 ∧ t.bus = vectorReads vector s ∧
      t.cycles = s.cycles + 4) ∧
    (Held s vector → Held s (vector + 1) → t.pc = wordOf (t.peek vector) (t.peek (vector + 1)))

/-! ### Decimal digits -/

/-- Both digits of the byte are decimal. -/
def IsBcd (v : Byte) : Prop := v.toNat % 16 ≤ 9 ∧ v.toNat / 16 ≤ 9

/-- The number two decimal digits stand for. -/
def bcdValue (v : Byte) : Nat := 10 * (v.toNat / 16) + v.toNat % 16

end Sys2Proof.Safety
end

