-- ==== Sys2Proof/Certificates/Slice0/Obligations.lean ====
section
/-! DEFINITION. The statements for the provers. Each formalises the rules of spec/ its docstring names; the terms are
those of Sys2Proof/Safety.lean. -/

open Sys2Proof Sys2Proof.Machine Sys2Proof.Safety

/-! ### The step, decoding, encoding -/

/-- 40_addressing_modes.md section 1, 60_exceptions.md section 3: at a boundary where nothing comes before it, the
instruction whose bytes stand in RAM or ROM at PC is executed on the state with PC past it, the holdoff ended, its
cycles counted and its bytes read once each. -/
def Obligations.StepRunsDecodedInstruction : Prop :=
  ∀ (s : State) (i : Instr) (rest : List Byte), AtFetch s → s.params.stopAddress ≠ some s.pc →
    (s.params.stopOnSwi = false ∨ i ≠ .swi) → (∀ op, i ≠ .unassigned op) →
    (∀ k, k < i.length → Held s (s.pc + BitVec.ofNat 16 k)) →
    decode [s.peek s.pc, s.peek (s.pc + 1), s.peek (s.pc + 2)] = .ok (i, rest) →
    step s = exec i { s with
      pc := s.pc + BitVec.ofNat 16 i.length, irqHoldoff := false, cycles := s.cycles + instrCycles i,
      bus := fetchReads s i.length }

/-- Words written out from the opcode map of 30_encoding.md R84, one or more for each family. -/
def Obligations.WrittenOutWordsDecode : Prop :=
  decode [0x8B, 0x38] = .ok (.adda (.imm 0x38), []) ∧ decode [0xE6, 0x05] = .ok (.ldab (.mem (.idx 0x05)), []) ∧
    decode [0x7E, 0x12, 0x34] = .ok (.jmp (.ext 0x1234), []) ∧ decode [0xDF, 0x30] = .ok (.stx (.dir 0x30), []) ∧
    decode [0x8C, 0x15, 0x20] = .ok (.cpx (.imm 0x1520), []) ∧ decode [0x2F, 0xF6] = .ok (.ble 0xF6, []) ∧
    decode [0x30] = .ok (.tsx, []) ∧ decode [0x35] = .ok (.txs, []) ∧ decode [0x06] = .ok (.tap, []) ∧
    decode [0x64, 0x00] = .ok (.lsr (.idx 0x00), []) ∧ decode [0xF8, 0x12, 0x00] = .ok (.eorb (.mem (.ext 0x1200)), []) ∧
    decode [0x00] = .ok (.unassigned 0x00, [])

/-- Decoding what the encoder gives for a well-formed instruction gives it back, with every byte after it left over,
whatever its operands. -/
def Obligations.DecodeOfEncode : Prop :=
  ∀ (i : Instr) (rest : List Byte), i.wf = true → decode (encode i ++ rest) = .ok (i, rest)

/-- The other direction: whatever bytes decode are the encoding of the well-formed instruction they decode to. -/
def Obligations.EncodeOfDecode : Prop :=
  ∀ (bytes : List Byte) (i : Instr) (rest : List Byte), decode bytes = .ok (i, rest) →
    i.wf = true ∧ encode i ++ rest = bytes

/-- 30_encoding.md R82: the first byte alone decides how many bytes an assigned instruction has, one to three, as the map
of R84 and the formats of R81 give it, and decoding takes exactly so many. (The length of an unassigned code is no rule of
the spec: UnassignedBytesAreTheListed.) -/
def Obligations.FirstByteAloneGivesTheLength : Prop :=
  (∀ op b1 b2 : Byte, op ∉ unassignedCodes → (decodeOp op b1 b2).length = opLength op ∧
    opLength op =
      if op.toNat / 16 ∈ [7, 0xB, 0xF] ∨ op ∈ [0x8C, 0x8E, 0xCE] then 3
      else if op.toNat / 16 ∈ [2, 6, 8, 9, 0xA, 0xC, 0xD, 0xE] then 2
      else 1) ∧
    ∀ (op : Byte) (more : List Byte) (i : Instr) (rest : List Byte), op ∉ unassignedCodes →
      decode (op :: more) = .ok (i, rest) → (op :: more).length = opLength op + rest.length

/-- 30_encoding.md section 3 (R86): the bytes that decode to no assigned instruction, whatever follows them, are the 59
listed. That the decoder takes one byte for such a code is the model's choice: no source defines their length (DESIGN
CHOICE, log entry 10). -/
def Obligations.UnassignedBytesAreTheListed : Prop :=
  unassignedCodes.length = 59 ∧
    (∀ op b1 b2 : Byte, (decodeOp op b1 b2 = .unassigned op ↔ op ∈ unassignedCodes) ∧
      ∀ op', decodeOp op b1 b2 = .unassigned op' → op' = op) ∧
    ∀ (op : Byte) (more : List Byte), op ∈ unassignedCodes → opLength op = 1 ∧
      decode (op :: more) = .ok (.unassigned op, more)

/-! ### Reset, boundaries, interrupts -/

/-- 10_state.md section 6: what the spec gives right after reset: I is 1, PC is the word at FFFEh (high byte first, the
spec's decision D1), the hidden latches are false (D13); the parameters are the defaults of 92_eei_decisions.md. Nothing
is said of the registers whose value the spec leaves unspecified. -/
def Obligations.ResetStateAsTheSpecGives : Prop :=
  State.reset.cc.i = true ∧ State.reset.pc = wordOf (State.reset.peek 0xFFFE) (State.reset.peek 0xFFFF) ∧
    State.reset.waiting = false ∧ State.reset.nmiPending = false ∧ State.reset.irqHoldoff = false ∧
    State.reset.params.swiVector = 0xFFFA ∧ State.reset.params.cpxHighBorrow = false ∧
    State.reset.params.iClearDelay = false ∧ State.reset.params.unassignedOpcode = .fault ∧
    State.reset.params.stopAddress = none ∧ State.reset.params.stopOnSwi = false ∧ ∀ a, State.reset.kindAt a = .ram

/-- 70_reset_and_hazards.md section 1 (Reset, R300): while RESET is active a step sets I, clears the latches (the spec's
decision D13), loads PC from FFFEh, high byte first (D1), and writes nothing else: not A, B, X, SP, the other flags or
memory, and nothing is stacked. That the registers keep their values is the model's (log entry 13). -/
def Obligations.ResetStepLoadsTheVector : Prop :=
  ∀ s : State, s.resetActive = true → ∃ t, step s = .next t ∧
    t.cc = { s.cc with i := true } ∧ t.waiting = false ∧ t.nmiPending = false ∧ t.irqHoldoff = false ∧
    t.pc = (read16 0xFFFE s).1 ∧ (Held s 0xFFFE → Held s 0xFFFF → t.pc = wordOf (s.peek 0xFFFE) (s.peek 0xFFFF)) ∧
    t.a = s.a ∧ t.b = s.b ∧ t.x = s.x ∧ t.sp = s.sp ∧ KeepsMemory s t ∧ t.bus = vectorReads 0xFFFE s ∧
    t.halted = s.halted ∧ t.irqLow = s.irqLow ∧ t.resetActive = true ∧ t.params = s.params ∧ t.cycles = s.cycles

/-- 60_exceptions.md section 8 (HALT, R281) and section 6 (the wait state, R273): while HALT is active and RESET is not, a
step changes nothing and makes no access; waiting with nothing acceptable, the machine fetches nothing and changes
nothing, only the holdoff of I_CLEAR_DELAY ends. That HALT is examined between instructions is the spec's decision D21. -/
def Obligations.StillStepsChangeNothing : Prop :=
  (∀ s : State, s.resetActive = false → s.halted = true → step s = .next { s with bus := [] }) ∧
    ∀ s : State, s.resetActive = false → s.halted = false → s.nmiPending = false →
      (s.irqLow = false ∨ s.cc.i = true ∨ (s.params.iClearDelay = true ∧ s.irqHoldoff = true)) → s.waiting = true →
      step s = .next { s with bus := [], irqHoldoff := false }

/-- 60_exceptions.md sections 3 and 4 (R264, R268, R270): an NMI request is answered whatever I holds and whatever IRQ asks;
the latch is cleared. The edge (D11), the priority (D10), the order of the stacked bytes (D2) and the entry as a step of
its own (D24) are the spec's decisions (log entry 16); the cycles counted are the model's (log entry 15). -/
def Obligations.NmiIsTakenWhateverTheMask : Prop :=
  ∀ s : State, s.resetActive = false → s.halted = false → s.nmiPending = true →
    ∃ t, step s = .next t ∧ Enters 0xFFFC s t ∧ t.nmiPending = false

/-- 60_exceptions.md section 3 (R264, R267): with no RESET, HALT or NMI, a low IRQ is answered when I is 0 and no holdoff is
in force (D12, log entry 16). -/
def Obligations.IrqIsTakenWhenUnmasked : Prop :=
  ∀ s : State, s.resetActive = false → s.halted = false → s.nmiPending = false → s.irqLow = true → s.cc.i = false →
    (s.params.iClearDelay = false ∨ s.irqHoldoff = false) →
    ∃ t, step s = .next t ∧ Enters 0xFFF8 s t ∧ t.nmiPending = false

/-- 70_reset_and_hazards.md section 5 (R311, the spec's decision D22): a run that is stuck waiting, whatever else the host
still does, ends there; stepped on, it stays stuck, with the registers and flags as they are and memory as the host's
moves leave it. The finite schedule of all the host's moves is the model's form (log entry 9). -/
def Obligations.StuckWaitingStaysStuck : Prop :=
  (∀ (schedule : List (List HostMove)) (s : State), StuckWaiting schedule s →
    runSchedule schedule s = .stuckWaiting s) ∧
  ∀ (mvs : List HostMove) (rest : List (List HostMove)) (s : State), StuckWaiting (mvs :: rest) s →
    ∃ t, hostStep mvs s = .next t ∧ StuckWaiting rest t ∧ t.a = s.a ∧ t.b = s.b ∧ t.x = s.x ∧ t.sp = s.sp ∧
      t.pc = s.pc ∧ t.cc = s.cc ∧ ∀ c, t.peek c = (applyHostMoves mvs s).peek c

/-- 70_reset_and_hazards.md section 5 (R311, the spec's decision D22): the ends of a run that the host asks for, tested where
an instruction would be fetched, whatever answers at PC, and the state reported, which is the one before the fetch. The
fault of an unassigned code, first in the rule's table, comes before them (DEDUCED, log entry 9). -/
def Obligations.RunEndsWhereTheHostAsks : Prop :=
  (∀ s : State, AtFetch s → s.params.stopAddress = some s.pc → (read8 s.pc s).1 ∉ unassignedCodes →
    step s = .fault (.stopAt s.pc)) ∧
  (∀ s : State, AtFetch s → s.params.stopAddress ≠ some s.pc → s.params.stopOnSwi = true → (read8 s.pc s).1 = 0x3F →
    step s = .fault (.stopOnSwi s.pc)) ∧
  ∀ (mvs : List HostMove) (rest : List (List HostMove)) (s : State) (e : Fault), hostStep mvs s = .fault e →
    runSchedule (mvs :: rest) s = .stopped e { applyHostMoves mvs s with bus := [], irqHoldoff := false }

/-- 60_exceptions.md sections 1 and 7 (R261, R277, the spec's decision D9): every assigned instruction answers a next state
in every state; `unassigned` stops the run with the fault that reports the byte and its address, and so does a step that
reads such a byte at PC, whatever ends of the run the host asked for (their order is DEDUCED, log entry 9). -/
def Obligations.UnassignedCodeIsTheOnlyFault : Prop :=
  (∀ (i : Instr) (s : State), (∀ op, i ≠ .unassigned op) → ∃ t, exec i s = .next t) ∧
    (∀ (s : State) (op : Byte), exec (.unassigned op) s = .fault (.unassignedOpcode op s.pc)) ∧
    ∀ s : State, AtFetch s → (read8 s.pc s).1 ∈ unassignedCodes →
      step s = .fault (.unassignedOpcode (read8 s.pc s).1 s.pc)

/-! ### Memory and operands -/

/-- 20_memory.md sections 6 and 7 (R60 item 2, R67, the spec's decision D5): RAM and ROM answer a read with the byte held; a
device or an empty address with a free value, drawn afresh (log entries 6, 7); a read changes nothing but the record of
accesses and the count of draws. -/
def Obligations.ReadGivesTheByteHeldOrAFreeOne : Prop :=
  ∀ (s : State) (a : Word),
    (Held s a → read8 a s = (s.peek a, { s with bus := s.bus ++ [.read a (s.peek a)] })) ∧
    (¬ Held s a → read8 a s = (Config.freeByte s.draws,
      { s with draws := s.draws + 1, bus := s.bus ++ [.read a (Config.freeByte s.draws)] }))

/-- 20_memory.md sections 4 and 7 (R57, R67, D5): a write changes the byte at its address where that is RAM; anywhere else it
changes no byte of memory; every other byte, every register and the rest of the state stay. -/
def Obligations.WriteChangesOneByteOfRam : Prop :=
  ∀ (s : State) (a : Word) (v : Byte), StoresByte s (write8 a v s) a v ∧
    write8 a v s = { s with mem := (write8 a v s).mem, bus := s.bus ++ [.write a v] }

/-- 20_memory.md section 2 (R52; the wrap at 2^16 is the spec's decision D4, the order of the accesses D6, RAM alone taking a
byte D5, log entries 5, 16): 16-bit data are big-endian: a 16-bit read is the read of the high byte and then of the low at
the next address, wherever the two lie, and changes only the record of accesses and the draws (log entries 6, 7); where
memory holds both it gives them as they stand. A 16-bit write stores both so. -/
def Obligations.WordsAreBigEndian : Prop :=
  (∀ (s : State) (a : Word),
    let h := read8 a s
    let l := read8 (a + 1) h.2
    (read16 a s).1 = wordOf h.1 l.1 ∧ (read16 a s).1.toNat = 256 * h.1.toNat + l.1.toNat ∧
      (read16 a s).2 = { s with bus := s.bus ++ [.read a h.1, .read (a + 1) l.1], draws := l.2.draws }) ∧
    (∀ (s : State) (a : Word), Held s a → Held s (a + 1) →
      (read16 a s).1 = wordOf (s.peek a) (s.peek (a + 1)) ∧
        (read16 a s).2 = { s with bus := s.bus ++ [.read a (s.peek a), .read (a + 1) (s.peek (a + 1))] }) ∧
    ∀ (s : State) (a v : Word), StoresBytes s (write16 a v s) [(a, hi8 v), (a + 1, lo8 v)] ∧
      write16 a v s = { s with mem := (write16 a v s).mem, bus := s.bus ++ [.write a (hi8 v), .write (a + 1) (lo8 v)] }

/-- 20_memory.md section 5 (R58): a push writes at SP and then decrements it; a pull increments SP and then reads there;
neither checks anything. The wrap mod 2^16 is the spec's decision D4 (R56), that only RAM takes the byte its decision D5
(R67; log entries 5, 16), the draw where nothing is held the model's (log entries 6, 7). -/
def Obligations.PushAndPullMoveOneByte : Prop :=
  (∀ (s : State) (v : Byte), StoresByte s (push8 v s) s.sp v ∧
    push8 v s = { s with sp := s.sp - 1, mem := (push8 v s).mem, bus := s.bus ++ [.write s.sp v] }) ∧
    ∀ s : State, (pull8 s).1 = (read8 (s.sp + 1) s).1 ∧
      (pull8 s).2 = { s with sp := s.sp + 1, bus := s.bus ++ [.read (s.sp + 1) (read8 (s.sp + 1) s).1],
                             draws := (read8 (s.sp + 1) s).2.draws }

/-- 20_memory.md section 5 (R59, general knowledge of the spec: D2, D18, log entry 17): a 16-bit value is pushed low byte
first, so it lies high byte at the lower address, and is pulled high byte first. -/
def Obligations.WordsGoOnTheStackLowByteFirst : Prop :=
  (∀ (s : State) (v : Word), push16 v s = push8 (hi8 v) (push8 (lo8 v) s) ∧
    StoresBytes s (push16 v s) [(s.sp, lo8 v), (s.sp - 1, hi8 v)] ∧ (push16 v s).sp = s.sp - 2) ∧
    ∀ s : State, (pull16 s).1 = wordOf (pull8 s).1 (pull8 (pull8 s).2).1 ∧ (pull16 s).2 = (pull8 (pull8 s).2).2 ∧
      (pull16 s).2.sp = s.sp + 2

/-- 10_state.md section 2 (R25; the fixed bits in a stored byte are the spec's decision D17): the register as a byte is
1 1 H I N Z V C; loading a byte takes bits 5 to 0 and ignores the other two. -/
def Obligations.CcrByteLayout : Prop :=
  (∀ f : Flags, f.toByte.toNat = 192 + 32 * f.h.toNat + 16 * f.i.toNat + 8 * f.n.toNat + 4 * f.z.toNat + 2 * f.v.toNat +
      f.c.toNat ∧ Flags.ofByte f.toByte = f) ∧
    ∀ v : Byte, (Flags.ofByte v).h = v.getLsbD 5 ∧ (Flags.ofByte v).i = v.getLsbD 4 ∧ (Flags.ofByte v).n = v.getLsbD 3 ∧
      (Flags.ofByte v).z = v.getLsbD 2 ∧ (Flags.ofByte v).v = v.getLsbD 1 ∧ (Flags.ofByte v).c = v.getLsbD 0 ∧
      (Flags.ofByte v).toByte = v ||| 0xC0

/-- 40_addressing_modes.md sections 5 to 10: R114 immediate, R115 direct, R116 extended, R117 indexed, R118 relative, R119 the
operand functions: the operand of an immediate, the effective addresses, the 8-bit and the 16-bit memory operand (the high
byte at the effective address, the low byte at the next, read in that order), the branch target. Reading an operand leaves
every register, the flags and memory: only the record of accesses and the draws change (log entries 6, 7). The wrap at 2^16
is the spec's decision D4, the order of the two reads D6 (log entry 16). -/
def Obligations.OperandsOfEachMode : Prop :=
  (∀ (s : State) (v h l : Byte), readSrc8 (.imm v) s = (v, s) ∧ readSrc16 (.imm (wordOf h l)) s = (wordOf h l, s) ∧
    (wordOf h l).toNat = 256 * h.toNat + l.toNat) ∧
  (∀ (s : State) (v h l : Byte),
    (effAddr (.dir v) s).toNat = v.toNat ∧ (effAddr (.idx v) s).toNat = (s.x.toNat + v.toNat) % 65536 ∧
    (effAddr (.ext (wordOf h l)) s).toNat = 256 * h.toNat + l.toNat ∧ effAddrX (.idx v) s = effAddr (.idx v) s ∧
    effAddrX (.ext (wordOf h l)) s = effAddr (.ext (wordOf h l)) s) ∧
  (∀ (s : State) (ea : Addr), readSrc8 (.mem ea) s = read8 (effAddr ea s) s) ∧
  (∀ (s : State) (ea : Addr),
    let h := read8 (effAddr ea s) s
    let l := read8 (effAddr ea s + 1) h.2
    (readSrc16 (.mem ea) s).1 = wordOf h.1 l.1 ∧ (readSrc16 (.mem ea) s).1.toNat = 256 * h.1.toNat + l.1.toNat ∧
      (readSrc16 (.mem ea) s).2 =
        { s with bus := s.bus ++ [.read (effAddr ea s) h.1, .read (effAddr ea s + 1) l.1], draws := l.2.draws }) ∧
  (∀ (s : State) (m : Src8),
    (readSrc8 m s).2 = { s with bus := (readSrc8 m s).2.bus, draws := (readSrc8 m s).2.draws }) ∧
  (∀ (s : State) (m : Src16),
    (readSrc16 m s).2 = { s with bus := (readSrc16 m s).2.bus, draws := (readSrc16 m s).2.draws }) ∧
  ∀ (s : State) (rel : Byte), (branchTarget rel s).toNat = ((s.pc.toNat : Int) + rel.toInt).emod 65536

/-! ### Arithmetic (41_acc_mem_arith.md) -/

/-- 41_acc_mem_arith.md section 1: R130 ADD, R131 ADC, R132 ABA.
The flag cells blank in the source are the spec's general knowledge (92_eei_decisions.md D19; log entry 17). -/
def Obligations.AdditionResultAndFlags : Prop :=
  Combines .adda .addb (fun x y _ => BitVec.ofNat 8 (x.toNat + y.toNat))
      (fun x y f => SumFlags x y false (BitVec.ofNat 8 (x.toNat + y.toNat)) f) ∧
    Combines .adca .adcb (fun x y f => BitVec.ofNat 8 (x.toNat + y.toNat + f.c.toNat))
      (fun x y f => SumFlags x y f.c (BitVec.ofNat 8 (x.toNat + y.toNat + f.c.toNat)) f) ∧
    (∀ s, Completes .aba s (AccBecomes .a (BitVec.ofNat 8 (s.a.toNat + s.b.toNat))
      (SumFlags s.a s.b false (BitVec.ofNat 8 (s.a.toNat + s.b.toNat)) s.cc) s)) ∧
    EncodesSrc8 .adda 0x8B 0x9B 0xAB 0xBB ∧ EncodesSrc8 .addb 0xCB 0xDB 0xEB 0xFB ∧
    EncodesSrc8 .adca 0x89 0x99 0xA9 0xB9 ∧ EncodesSrc8 .adcb 0xC9 0xD9 0xE9 0xF9 ∧ EncodesInh .aba 0x1B 2

/-- 41_acc_mem_arith.md section 2: R133 SUB, R134 SBC, R135 SBA.
The flag cells blank in the source are the spec's general knowledge (92_eei_decisions.md D19; log entry 17). -/
def Obligations.SubtractionResultAndFlags : Prop :=
  Combines .suba .subb (fun x y _ => x - y) (fun x y f => DiffFlags x y false (x - y) f) ∧
    Combines .sbca .sbcb (fun x y f => BitVec.ofInt 8 ((x.toNat : Int) - y.toNat - f.c.toNat))
      (fun x y f => DiffFlags x y f.c (BitVec.ofInt 8 ((x.toNat : Int) - y.toNat - f.c.toNat)) f) ∧
    (∀ s, Completes .sba s (AccBecomes .a (s.a - s.b) (DiffFlags s.a s.b false (s.a - s.b) s.cc) s)) ∧
    EncodesSrc8 .suba 0x80 0x90 0xA0 0xB0 ∧ EncodesSrc8 .subb 0xC0 0xD0 0xE0 0xF0 ∧
    EncodesSrc8 .sbca 0x82 0x92 0xA2 0xB2 ∧ EncodesSrc8 .sbcb 0xC2 0xD2 0xE2 0xF2 ∧ EncodesInh .sba 0x10 2

/-- 41_acc_mem_arith.md section 2: R136 CMP, R137 CBA: the flags of a subtraction; no register and no memory is written.
The flag cells blank in the source are the spec's general knowledge (92_eei_decisions.md D19; log entry 17). -/
def Obligations.ComparisonWritesFlagsOnly : Prop :=
  Compares .cmpa .cmpb (fun x y f => DiffFlags x y false (x - y) f) ∧
    (∀ s, Completes .cba s (fun t => DiffFlags s.a s.b false (s.a - s.b) s.cc t.cc ∧ t = { s with cc := t.cc })) ∧
    EncodesSrc8 .cmpa 0x81 0x91 0xA1 0xB1 ∧ EncodesSrc8 .cmpb 0xC1 0xD1 0xE1 0xF1 ∧ EncodesInh .cba 0x11 2

/-- 41_acc_mem_arith.md section 2: R138 NEG, and 42_acc_mem_logic_shift.md section 2: R164 COM. The flag cells blank in the
source are the spec's general knowledge (92_eei_decisions.md D19; log entry 17). -/
def Obligations.NegateAndComplement : Prop :=
  Modifies .nega .negb .neg (fun o _ => BitVec.ofInt 8 (-(o.toNat : Int)))
      (fun o f g => g.n = (-o).getLsbD 7 ∧ (g.z = true ↔ -o = 0) ∧ (g.v = true ↔ -o = 0x80) ∧ (g.c = true ↔ -o ≠ 0) ∧
        g.h = f.h ∧ g.i = f.i) ∧
    EncodesInh .nega 0x40 2 ∧ EncodesInh .negb 0x50 2 ∧ EncodesAddrX .neg 0x60 7 0x70 6 ∧
    Modifies .coma .comb .com (fun o _ => o ^^^ 0xFF)
      (fun o f g => g.n = (o ^^^ 0xFF).getLsbD 7 ∧ (g.z = true ↔ o = 0xFF) ∧ g.v = false ∧ g.c = true ∧ g.h = f.h ∧
        g.i = f.i) ∧
    EncodesInh .coma 0x43 2 ∧ EncodesInh .comb 0x53 2 ∧ EncodesAddrX .com 0x63 7 0x73 6

/-- 41_acc_mem_arith.md section 3: R139 DAA; the correction is the spec's decision D8 (log entries 16, 17). V is the next
free value (log entry 8): the statement holds for both values of it. -/
def Obligations.DecimalAdjust : Prop :=
  (∀ s, ∃ t low high, exec .daa s = .next t ∧
    (low = if s.a.toNat % 16 > 9 ∨ s.cc.h = true then 6 else 0) ∧
    (high = if s.a.toNat / 16 > 9 ∨ s.cc.c = true ∨ (s.a.toNat / 16 > 8 ∧ s.a.toNat % 16 > 9) then 96 else 0) ∧
    t.a = BitVec.ofNat 8 (s.a.toNat + low + high) ∧ t.cc.n = t.a.getLsbD 7 ∧ (t.cc.z = true ↔ t.a = 0) ∧
    t.cc.v = Config.freeBit s.draws ∧ (t.cc.c = true ↔ (s.cc.c = true ∨ high ≠ 0)) ∧
    t = { s with a := t.a, cc := { s.cc with n := t.cc.n, z := t.cc.z, v := t.cc.v, c := t.cc.c },
                 draws := s.draws + 1 }) ∧
    EncodesInh .daa 0x19 2

/-- 41_acc_mem_arith.md section 4: R140 INC, R141 DEC: C, H and I are not written.
The flag cells blank in the source are the spec's general knowledge (92_eei_decisions.md D19; log entry 17). -/
def Obligations.StepByOneResultAndFlags : Prop :=
  Modifies .inca .incb .inc (fun o _ => BitVec.ofNat 8 (o.toNat + 1))
      (fun o f g => g.n = (o + 1).getLsbD 7 ∧ (g.z = true ↔ o = 0xFF) ∧ (g.v = true ↔ o = 0x7F) ∧ g.c = f.c ∧ g.h = f.h ∧
        g.i = f.i) ∧
    Modifies .deca .decb .dec (fun o _ => BitVec.ofInt 8 ((o.toNat : Int) - 1))
      (fun o f g => g.n = (o - 1).getLsbD 7 ∧ (g.z = true ↔ o = 1) ∧ (g.v = true ↔ o = 0x80) ∧ g.c = f.c ∧ g.h = f.h ∧
        g.i = f.i) ∧
    EncodesInh .inca 0x4C 2 ∧ EncodesInh .incb 0x5C 2 ∧ EncodesAddrX .inc 0x6C 7 0x7C 6 ∧
    EncodesInh .deca 0x4A 2 ∧ EncodesInh .decb 0x5A 2 ∧ EncodesAddrX .dec 0x6A 7 0x7A 6

/-- 41_acc_mem_arith.md section 4: R142 CLR (the memory form writes and does not read), R143 TST (the memory form reads and
does not write).
The flag cells blank in the source are the spec's general knowledge (92_eei_decisions.md D19; log entry 17). -/
def Obligations.ClearAndTest : Prop :=
  (∀ s, Completes .clra s (AccBecomes .a 0 (fun g => g = { s.cc with n := false, z := true, v := false, c := false }) s)) ∧
    (∀ s, Completes .clrb s (AccBecomes .b 0 (fun g => g = { s.cc with n := false, z := true, v := false, c := false }) s)) ∧
    (∀ s m, Completes (.clr m) s (fun t => StoresByte s t (effAddrX m s) 0 ∧
      t = { s with cc := { s.cc with n := false, z := true, v := false, c := false }, mem := t.mem,
                   bus := s.bus ++ [.write (effAddrX m s) 0] })) ∧
    (∀ s, Completes .tsta s (fun t => t = { s with cc := t.cc } ∧ t.cc.n = s.a.getLsbD 7 ∧ (t.cc.z = true ↔ s.a = 0) ∧
      t.cc.v = false ∧ t.cc.c = false ∧ t.cc.h = s.cc.h ∧ t.cc.i = s.cc.i)) ∧
    (∀ s, Completes .tstb s (fun t => t = { s with cc := t.cc } ∧ t.cc.n = s.b.getLsbD 7 ∧ (t.cc.z = true ↔ s.b = 0) ∧
      t.cc.v = false ∧ t.cc.c = false ∧ t.cc.h = s.cc.h ∧ t.cc.i = s.cc.i)) ∧
    (∀ s m, Completes (.tst m) s (fun t => t = { (read8 (effAddrX m s) s).2 with cc := t.cc } ∧
      t.cc.n = (read8 (effAddrX m s) s).1.getLsbD 7 ∧ (t.cc.z = true ↔ (read8 (effAddrX m s) s).1 = 0) ∧
      t.cc.v = false ∧ t.cc.c = false ∧ t.cc.h = s.cc.h ∧ t.cc.i = s.cc.i ∧ KeepsMemory s t)) ∧
    EncodesInh .clra 0x4F 2 ∧ EncodesInh .clrb 0x5F 2 ∧ EncodesAddrX .clr 0x6F 7 0x7F 6 ∧
    EncodesInh .tsta 0x4D 2 ∧ EncodesInh .tstb 0x5D 2 ∧ EncodesAddrX .tst 0x6D 7 0x7D 6

/-- The overflow flag of an addition and of a subtraction says exactly that the signed result does not fit in a byte
(10_state.md section 2, R30), and the borrow that the unsigned subtrahend exceeds the minuend (R31). The formulas are
the spec's general knowledge (log entry 17). -/
def Obligations.OverflowMeansTheSignedResultDoesNotFit : Prop :=
  ∀ (x y : Byte) (c : Bool) (f : Flags),
    ((add8 x y c f).2.v = true ↔ ¬ (-128 ≤ x.toInt + y.toInt + c.toNat ∧ x.toInt + y.toInt + c.toNat ≤ 127)) ∧
    ((sub8 x y c f).2.v = true ↔ ¬ (-128 ≤ x.toInt - y.toInt - c.toNat ∧ x.toInt - y.toInt - c.toNat ≤ 127)) ∧
    ((sub8 x y c f).2.c = true ↔ x.toNat < y.toNat + c.toNat)

/-- The purpose of DAA (41_acc_mem_arith.md section 3): after adding two BCD bytes, with or without carry in, it gives the
decimal sum in BCD, with C its hundreds digit, whatever V is. The correction is the spec's decision D8. -/
def Obligations.DecimalAdjustGivesTheDecimalSum : Prop :=
  ∀ (x y : Byte) (cin v : Bool) (f : Flags), IsBcd x → IsBcd y →
    let p := add8 x y cin f
    let d := opDaa p.1 v p.2
    IsBcd d.1 ∧ bcdValue d.1 + 100 * d.2.c.toNat = bcdValue x + bcdValue y + cin.toNat

/-! ### Logic and shifts (42_acc_mem_logic_shift.md) -/

/-- 42_acc_mem_logic_shift.md section 1: R160 AND, R162 EOR, R163 ORA; R161 BIT writes the flags of AND and nothing else.
The flag cells blank in the source are the spec's general knowledge (92_eei_decisions.md D19; log entry 17). -/
def Obligations.LogicResultAndFlags : Prop :=
  Combines .anda .andb (fun x y _ => x &&& y) (fun x y f => MoveFlags8 (x &&& y) f) ∧
    Combines .eora .eorb (fun x y _ => x ^^^ y) (fun x y f => MoveFlags8 (x ^^^ y) f) ∧
    Combines .oraa .orab (fun x y _ => x ||| y) (fun x y f => MoveFlags8 (x ||| y) f) ∧
    EncodesSrc8 .anda 0x84 0x94 0xA4 0xB4 ∧ EncodesSrc8 .andb 0xC4 0xD4 0xE4 0xF4 ∧
    EncodesSrc8 .eora 0x88 0x98 0xA8 0xB8 ∧ EncodesSrc8 .eorb 0xC8 0xD8 0xE8 0xF8 ∧
    EncodesSrc8 .oraa 0x8A 0x9A 0xAA 0xBA ∧ EncodesSrc8 .orab 0xCA 0xDA 0xEA 0xFA ∧
    Compares .bita .bitb (fun x y f => MoveFlags8 (x &&& y) f) ∧
    EncodesSrc8 .bita 0x85 0x95 0xA5 0xB5 ∧ EncodesSrc8 .bitb 0xC5 0xD5 0xE5 0xF5

/-- 42_acc_mem_logic_shift.md section 3: R165 ROL, R166 ROR (rotations of the nine bits of C and the operand), R167 ASL,
R168 ASR, R169 LSR. The bit movements and the reading of note 6 are the spec's decision D20 (log entries 16, 17). -/
def Obligations.RotatesAndShifts : Prop :=
  Modifies .rola .rolb .rol (fun o f => BitVec.ofNat 8 (2 * o.toNat + f.c.toNat))
      (fun o f => ShiftFlags (BitVec.ofNat 8 (2 * o.toNat + f.c.toNat)) (o.getLsbD 7) f) ∧
    Modifies .rora .rorb .ror (fun o f => BitVec.ofNat 8 (o.toNat / 2 + 128 * f.c.toNat))
      (fun o f => ShiftFlags (BitVec.ofNat 8 (o.toNat / 2 + 128 * f.c.toNat)) (o.getLsbD 0) f) ∧
    EncodesInh .rola 0x49 2 ∧ EncodesInh .rolb 0x59 2 ∧ EncodesAddrX .rol 0x69 7 0x79 6 ∧
    EncodesInh .rora 0x46 2 ∧ EncodesInh .rorb 0x56 2 ∧ EncodesAddrX .ror 0x66 7 0x76 6 ∧
    Modifies .asla .aslb .asl (fun o _ => BitVec.ofNat 8 (2 * o.toNat))
      (fun o f => ShiftFlags (BitVec.ofNat 8 (2 * o.toNat)) (o.getLsbD 7) f) ∧
    Modifies .asra .asrb .asr (fun o _ => BitVec.ofInt 8 (o.toInt / 2))
      (fun o f => ShiftFlags (BitVec.ofInt 8 (o.toInt / 2)) (o.getLsbD 0) f) ∧
    Modifies .lsra .lsrb .lsr (fun o _ => BitVec.ofNat 8 (o.toNat / 2))
      (fun o f g => ShiftFlags (BitVec.ofNat 8 (o.toNat / 2)) (o.getLsbD 0) f g ∧ g.n = false ∧ g.v = g.c) ∧
    EncodesInh .asla 0x48 2 ∧ EncodesInh .aslb 0x58 2 ∧ EncodesAddrX .asl 0x68 7 0x78 6 ∧
    EncodesInh .asra 0x47 2 ∧ EncodesInh .asrb 0x57 2 ∧ EncodesAddrX .asr 0x67 7 0x77 6 ∧
    EncodesInh .lsra 0x44 2 ∧ EncodesInh .lsrb 0x54 2 ∧ EncodesAddrX .lsr 0x64 7 0x74 6

/-! ### Load, store, stack, transfer (43_acc_mem_move.md) -/

/-- 43_acc_mem_move.md: R180 LDA, R184 TAB, R185 TBA.
The flag cells blank in the source are the spec's general knowledge (92_eei_decisions.md D19; log entry 17). -/
def Obligations.LoadAndTransferAccumulators : Prop :=
  Combines .ldaa .ldab (fun _ y _ => y) (fun _ y f => MoveFlags8 y f) ∧
    EncodesSrc8 .ldaa 0x86 0x96 0xA6 0xB6 ∧ EncodesSrc8 .ldab 0xC6 0xD6 0xE6 0xF6 ∧
    (∀ s, Completes .tab s (AccBecomes .b s.a (MoveFlags8 s.a s.cc) s)) ∧
    (∀ s, Completes .tba s (AccBecomes .a s.b (MoveFlags8 s.b s.cc) s)) ∧
    EncodesInh .tab 0x16 2 ∧ EncodesInh .tba 0x17 2

/-- 43_acc_mem_move.md: R181 STA: one write, no read of the destination; N and Z from the stored value.
The flag cells blank in the source are the spec's general knowledge (92_eei_decisions.md D19; log entry 17). -/
def Obligations.StoreAccumulator : Prop :=
  (∀ s m, Completes (.staa m) s (fun t => StoresByte s t (effAddr m s) s.a ∧ MoveFlags8 s.a s.cc t.cc ∧
    t = { s with cc := t.cc, mem := t.mem, bus := s.bus ++ [.write (effAddr m s) s.a] })) ∧
    (∀ s m, Completes (.stab m) s (fun t => StoresByte s t (effAddr m s) s.b ∧ MoveFlags8 s.b s.cc t.cc ∧
      t = { s with cc := t.cc, mem := t.mem, bus := s.bus ++ [.write (effAddr m s) s.b] })) ∧
    EncodesAddr .staa 0x97 4 0xA7 6 0xB7 5 ∧ EncodesAddr .stab 0xD7 4 0xE7 6 0xF7 5

/-- 43_acc_mem_move.md: R182 PSH, R183 PUL: no flag is written (blank cells: D19, log entry 17). -/
def Obligations.PushAndPullAccumulator : Prop :=
  (∀ s, Completes .psha s (fun t => StoresByte s t s.sp s.a ∧
    t = { s with sp := s.sp - 1, mem := t.mem, bus := s.bus ++ [.write s.sp s.a] })) ∧
    (∀ s, Completes .pshb s (fun t => StoresByte s t s.sp s.b ∧
      t = { s with sp := s.sp - 1, mem := t.mem, bus := s.bus ++ [.write s.sp s.b] })) ∧
    (∀ s, Completes .pula s (fun t => t.a = (read8 (s.sp + 1) s).1 ∧ KeepsMemory s t ∧
      t = { (read8 (s.sp + 1) s).2 with a := t.a, sp := s.sp + 1 })) ∧
    (∀ s, Completes .pulb s (fun t => t.b = (read8 (s.sp + 1) s).1 ∧ KeepsMemory s t ∧
      t = { (read8 (s.sp + 1) s).2 with b := t.b, sp := s.sp + 1 })) ∧
    EncodesInh .psha 0x36 4 ∧ EncodesInh .pshb 0x37 4 ∧ EncodesInh .pula 0x32 4 ∧ EncodesInh .pulb 0x33 4

/-! ### Index register and stack pointer (44_index_stack.md) -/

/-- 44_index_stack.md: R190 CPX under both values of CPX_HIGH_BORROW (the spec's open point D7, log entry 4): only Z, N and V
are written. -/
def Obligations.CompareIndexRegister : Prop :=
  (∀ s m, ∃ t w borrow rh, exec (.cpx m) s = .next t ∧ w = (readSrc16 m s).1 ∧
    (borrow = if s.params.cpxHighBorrow = true ∧ (lo8 s.x).toNat < (lo8 w).toNat then 1 else 0) ∧
    rh = BitVec.ofInt 8 (((hi8 s.x).toNat : Int) - (hi8 w).toNat - borrow) ∧
    (t.cc.z = true ↔ s.x = w) ∧ t.cc.n = rh.getLsbD 7 ∧
    (t.cc.v = true ↔ ((hi8 s.x).getLsbD 7 ≠ (hi8 w).getLsbD 7 ∧ (hi8 s.x).getLsbD 7 ≠ rh.getLsbD 7)) ∧
    t = { (readSrc16 m s).2 with cc := { s.cc with z := t.cc.z, n := t.cc.n, v := t.cc.v } } ∧ KeepsMemory s t) ∧
    EncodesSrc16 .cpx 0x8C 0x9C 0xAC 0xBC

/-- With CPX_HIGH_BORROW true, N and V after CPX are those of the whole 16-bit subtraction; with it false they are those
of the high bytes alone (44_index_stack.md R190, the two readings). -/
def Obligations.CpxFlagsAreThoseOfTheChosenSubtraction : Prop :=
  ∀ (x m : Word) (f : Flags),
    ((flagsCpx x m true f).n = (x - m).getLsbD 15 ∧
      ((flagsCpx x m true f).v = true ↔ ¬ (-32768 ≤ x.toInt - m.toInt ∧ x.toInt - m.toInt ≤ 32767))) ∧
    ((flagsCpx x m false f).n = (hi8 x - hi8 m).getLsbD 7 ∧
      ((flagsCpx x m false f).v = true ↔
        ¬ (-128 ≤ (hi8 x).toInt - (hi8 m).toInt ∧ (hi8 x).toInt - (hi8 m).toInt ≤ 127)))

/-- 44_index_stack.md: R191 DEX, R193 INX (Z from all 16 bits, nothing else), R192 DES, R194 INS (no flag).
The flag cells blank in the source are the spec's general knowledge (92_eei_decisions.md D19; log entry 17). -/
def Obligations.StepIndexAndStackPointer : Prop :=
  (∀ s, exec .dex s = .next { s with x := BitVec.ofInt 16 ((s.x.toNat : Int) - 1),
                                     cc := { s.cc with z := decide (s.x = 1) } }) ∧
    (∀ s, exec .inx s = .next { s with x := BitVec.ofNat 16 (s.x.toNat + 1),
                                       cc := { s.cc with z := decide (s.x = 0xFFFF) } }) ∧
    (∀ s, exec .des s = .next { s with sp := BitVec.ofInt 16 ((s.sp.toNat : Int) - 1) }) ∧
    (∀ s, exec .ins s = .next { s with sp := BitVec.ofNat 16 (s.sp.toNat + 1) }) ∧
    EncodesInh .dex 0x09 4 ∧ EncodesInh .inx 0x08 4 ∧ EncodesInh .des 0x34 4 ∧ EncodesInh .ins 0x31 4

/-- 44_index_stack.md: R195 LDX, R196 LDS.
The flag cells blank in the source are the spec's general knowledge (92_eei_decisions.md D19; log entry 17). -/
def Obligations.LoadIndexAndStackPointer : Prop :=
  (∀ s m, Completes (.ldx m) s (fun t => t.x = (readSrc16 m s).1 ∧ MoveFlags16 t.x s.cc t.cc ∧ KeepsMemory s t ∧
    t = { (readSrc16 m s).2 with x := t.x, cc := t.cc })) ∧
    (∀ s m, Completes (.lds m) s (fun t => t.sp = (readSrc16 m s).1 ∧ MoveFlags16 t.sp s.cc t.cc ∧ KeepsMemory s t ∧
      t = { (readSrc16 m s).2 with sp := t.sp, cc := t.cc })) ∧
    EncodesSrc16 .ldx 0xCE 0xDE 0xEE 0xFE ∧ EncodesSrc16 .lds 0x8E 0x9E 0xAE 0xBE

/-- 44_index_stack.md: R197 STX, R198 STS: the high byte is written at the effective address first, the low byte at the next
address second (the order is the spec's decision D6).
The flag cells blank in the source are the spec's general knowledge (92_eei_decisions.md D19; log entry 17). -/
def Obligations.StoreIndexAndStackPointer : Prop :=
  (∀ s m, Completes (.stx m) s (fun t =>
    StoresBytes s t [(effAddr m s, hi8 s.x), (effAddr m s + 1, lo8 s.x)] ∧ MoveFlags16 s.x s.cc t.cc ∧
    t = { s with cc := t.cc, mem := t.mem,
                 bus := s.bus ++ [.write (effAddr m s) (hi8 s.x), .write (effAddr m s + 1) (lo8 s.x)] })) ∧
    (∀ s m, Completes (.sts m) s (fun t =>
      StoresBytes s t [(effAddr m s, hi8 s.sp), (effAddr m s + 1, lo8 s.sp)] ∧ MoveFlags16 s.sp s.cc t.cc ∧
      t = { s with cc := t.cc, mem := t.mem,
                   bus := s.bus ++ [.write (effAddr m s) (hi8 s.sp), .write (effAddr m s + 1) (lo8 s.sp)] })) ∧
    EncodesAddr .stx 0xDF 5 0xEF 7 0xFF 6 ∧ EncodesAddr .sts 0x9F 5 0xAF 7 0xBF 6

/-- 44_index_stack.md: R199 TXS, R200 TSX: no flag; TSX undoes TXS. The opcodes and X <- SP + 1 are the spec's reading of a
damaged row (90_conflicts.md C1, C7; log entries 16, 17). -/
def Obligations.TransferIndexAndStackPointer : Prop :=
  (∀ s, exec .txs s = .next { s with sp := BitVec.ofInt 16 ((s.x.toNat : Int) - 1) }) ∧
    (∀ s, exec .tsx s = .next { s with x := BitVec.ofNat 16 (s.sp.toNat + 1) }) ∧
    (∀ s, ∃ t u, exec .txs s = .next t ∧ exec .tsx t = .next u ∧ u.x = s.x) ∧
    EncodesInh .txs 0x35 4 ∧ EncodesInh .tsx 0x30 4

/-! ### Branches, jumps, subroutines, interrupts (45_branch_jump.md) -/

/-- 45_branch_jump.md section 1: R210 to R213, R216, R218, R220 to R224: each is taken for exactly the listed values of N Z V
C, and writes PC alone (the blank flag cells are the spec's general knowledge, log entry 17). -/
def Obligations.BranchesOnOneTest : Prop :=
  (∀ s rel, exec (.bra rel) s = .next { s with pc := s.pc + rel.signExtend 16 }) ∧
    Branches .bcc [0, 2, 4, 6, 8, 0xA, 0xC, 0xE] ∧ Branches .bcs [1, 3, 5, 7, 9, 0xB, 0xD, 0xF] ∧
    Branches .beq [4, 5, 6, 7, 0xC, 0xD, 0xE, 0xF] ∧ Branches .bhi [0, 2, 8, 0xA] ∧
    Branches .bls [1, 3, 4, 5, 6, 7, 9, 0xB, 0xC, 0xD, 0xE, 0xF] ∧
    Branches .bmi [8, 9, 0xA, 0xB, 0xC, 0xD, 0xE, 0xF] ∧ Branches .bne [0, 1, 2, 3, 8, 9, 0xA, 0xB] ∧
    Branches .bvc [0, 1, 4, 5, 8, 9, 0xC, 0xD] ∧ Branches .bvs [2, 3, 6, 7, 0xA, 0xB, 0xE, 0xF] ∧
    Branches .bpl [0, 1, 2, 3, 4, 5, 6, 7] ∧
    EncodesRel .bra 0x20 4 ∧ EncodesRel .bcc 0x24 4 ∧ EncodesRel .bcs 0x25 4 ∧ EncodesRel .beq 0x27 4 ∧
    EncodesRel .bhi 0x22 4 ∧ EncodesRel .bls 0x23 4 ∧ EncodesRel .bmi 0x2B 4 ∧ EncodesRel .bne 0x26 4 ∧
    EncodesRel .bvc 0x28 4 ∧ EncodesRel .bvs 0x29 4 ∧ EncodesRel .bpl 0x2A 4

/-- 45_branch_jump.md section 1: R214 BGE, R215 BGT, R217 BLE, R219 BLT: each is taken for exactly the listed values of
N Z V C. The exclusive-or in the conditions is restored by the spec (93_implementation_defined.md G19; log entry 17). -/
def Obligations.BranchesOnSignedOrder : Prop :=
  Branches .bge [0, 1, 4, 5, 0xA, 0xB, 0xE, 0xF] ∧ Branches .bgt [0, 1, 0xA, 0xB] ∧
    Branches .ble [2, 3, 4, 5, 6, 7, 8, 9, 0xC, 0xD, 0xE, 0xF] ∧ Branches .blt [2, 3, 6, 7, 8, 9, 0xC, 0xD] ∧
    EncodesRel .bge 0x2C 4 ∧ EncodesRel .bgt 0x2E 4 ∧ EncodesRel .ble 0x2F 4 ∧ EncodesRel .blt 0x2D 4

/-- What the branches mean after a comparison (41_acc_mem_arith.md section 2, 45_branch_jump.md section 1): after CMPA or CMPB
with an operand of any mode, or CBA, BHI, BLS, BCC, BCS compare as unsigned numbers, BGT, BGE, BLT, BLE as signed, BEQ and
BNE test equality. It rests on the subtraction flags and the restored exclusive-or, the spec's general knowledge (D19, G19;
log entries 16, 17). -/
def Obligations.BranchesAfterCompareOrderTheOperands : Prop :=
  ∀ (s t : State) (x y rel : Byte),
    ((∃ m, exec (.cmpa m) s = .next t ∧ x = s.a ∧ y = (readSrc8 m s).1) ∨
      (∃ m, exec (.cmpb m) s = .next t ∧ x = s.b ∧ y = (readSrc8 m s).1) ∨
      (exec .cba s = .next t ∧ x = s.a ∧ y = s.b)) →
    let goes := fun (b : Bool) => Host.Outcome.next (φ := Fault) (ρ := Refusal)
      { t with pc := if b = true then t.pc + rel.signExtend 16 else t.pc }
    exec (.beq rel) t = goes (decide (x = y)) ∧ exec (.bne rel) t = goes (decide (x ≠ y)) ∧
    exec (.bhi rel) t = goes (decide (y.toNat < x.toNat)) ∧ exec (.bls rel) t = goes (decide (x.toNat ≤ y.toNat)) ∧
    exec (.bcc rel) t = goes (decide (y.toNat ≤ x.toNat)) ∧ exec (.bcs rel) t = goes (decide (x.toNat < y.toNat)) ∧
    exec (.bgt rel) t = goes (decide (y.toInt < x.toInt)) ∧ exec (.bge rel) t = goes (decide (y.toInt ≤ x.toInt)) ∧
    exec (.blt rel) t = goes (decide (x.toInt < y.toInt)) ∧ exec (.ble rel) t = goes (decide (x.toInt ≤ y.toInt))

/-- 45_branch_jump.md section 2: R225 BSR, R227 JSR: the return address goes on the stack low byte first, the target is
computed from the state before. The push and the jump to the effective address itself are the spec's decisions D18 and
D23 (log entries 16, 17). -/
def Obligations.CallsPushTheReturnAddress : Prop :=
  (∀ s rel, Completes (.bsr rel) s (fun t =>
    StoresBytes s t [(s.sp, lo8 s.pc), (s.sp - 1, hi8 s.pc)] ∧
    t = { s with pc := s.pc + rel.signExtend 16, sp := s.sp - 2, mem := t.mem,
                 bus := s.bus ++ [.write s.sp (lo8 s.pc), .write (s.sp - 1) (hi8 s.pc)] })) ∧
    (∀ s m, Completes (.jsr m) s (fun t =>
      StoresBytes s t [(s.sp, lo8 s.pc), (s.sp - 1, hi8 s.pc)] ∧
      t = { s with pc := effAddrX m s, sp := s.sp - 2, mem := t.mem,
                   bus := s.bus ++ [.write s.sp (lo8 s.pc), .write (s.sp - 1) (hi8 s.pc)] })) ∧
    EncodesRel .bsr 0x8D 8 ∧ EncodesAddrX .jsr 0xAD 8 0xBD 9

/-- 45_branch_jump.md section 2: R226 JMP: PC takes the effective address and nothing is read at it (the spec's decision
D23, log entry 16). -/
def Obligations.JumpGoesToTheEffectiveAddress : Prop :=
  (∀ s o, exec (.jmp (.idx o)) s = .next { s with pc := s.x + o.setWidth 16 }) ∧
    (∀ s h l, exec (.jmp (.ext (wordOf h l))) s = .next { s with pc := BitVec.ofNat 16 (256 * h.toNat + l.toNat) }) ∧
    EncodesAddrX .jmp 0x6E 4 0x7E 3

/-- 45_branch_jump.md sections 2 and 3: R230 RTS pulls the high byte of PC and then the low; R229 RTI pulls CCR, B, A, XH,
XL, PCH, PCL in that order (the spec's decisions D18, D2; log entry 16). Bytes that RAM or ROM holds are pulled as they
stand, one access each. -/
def Obligations.ReturnsPullTheStack : Prop :=
  (∀ s, Completes .rts s (fun t => ∃ h l, (readRun 2 (s.sp + 1) s).1 = [h, l] ∧ KeepsMemory s t ∧
    t = { (readRun 2 (s.sp + 1) s).2 with pc := wordOf h l, sp := s.sp + 2 })) ∧
    (∀ s, Completes .rti s (fun t => ∃ ccr b a xh xl ph pl,
      (readRun 7 (s.sp + 1) s).1 = [ccr, b, a, xh, xl, ph, pl] ∧ KeepsMemory s t ∧
      t = { (readRun 7 (s.sp + 1) s).2 with
            cc := { h := ccr.getLsbD 5, i := ccr.getLsbD 4, n := ccr.getLsbD 3, z := ccr.getLsbD 2, v := ccr.getLsbD 1,
                    c := ccr.getLsbD 0 },
            b := b, a := a, x := wordOf xh xl, pc := wordOf ph pl, sp := s.sp + 7 })) ∧
    (∀ (n : Nat) (a : Word) (s : State), (∀ k, k < n → Held s (a + BitVec.ofNat 16 k)) →
      (readRun n a s).1 = (List.range n).map (fun k => s.peek (a + BitVec.ofNat 16 k)) ∧
      (readRun n a s).2 = { s with bus := s.bus ++ heldReads n a s }) ∧
    EncodesInh .rts 0x39 5 ∧ EncodesInh .rti 0x3B 10

/-- 45_branch_jump.md section 3: R231 SWI: the frame is stacked with the I of before, I is set, PC is loaded from SWI_VECTOR
(the spec's open point D3); not masked by I. The order of the frame is the spec's decision D2 (log entry 16). -/
def Obligations.SoftwareInterruptStacksAndJumps : Prop :=
  (∀ s, Completes .swi s (fun t => StoresBytes s t (frameBytes s) ∧ t.sp = s.sp - 7 ∧ t.cc = { s.cc with i := true } ∧
    t.pc = (read16 s.params.swiVector (stackAll s)).1 ∧
    (Held s s.params.swiVector → Held s (s.params.swiVector + 1) →
      t.pc = wordOf (t.peek s.params.swiVector) (t.peek (s.params.swiVector + 1))) ∧
    t.a = s.a ∧ t.b = s.b ∧ t.x = s.x ∧ KeepsSystem s t ∧
    Accesses s t ((frameBytes s).map (fun e => .write e.1 e.2) ++ vectorReads s.params.swiVector (stackAll s)))) ∧
    EncodesInh .swi 0x3F 12

/-- 45_branch_jump.md section 3: R232 WAI: the frame is stacked and the machine waits (the spec's decision D16, log entry 16);
no flag and no other register changes. -/
def Obligations.WaitStacksTheFrame : Prop :=
  (∀ s, Completes .wai s (fun t => StoresBytes s t (frameBytes s) ∧
    t = { s with sp := s.sp - 7, waiting := true, mem := t.mem,
                 bus := s.bus ++ (frameBytes s).map (fun e => .write e.1 e.2) })) ∧
    EncodesInh .wai 0x3E 9

/-- An interrupt frame written into RAM and pulled by RTI gives every register back (60_exceptions.md sections 3 and 5):
RTI after SWI restores A, B, X, SP, the flags and the return address. -/
def Obligations.RtiUndoesSwi : Prop :=
  ∀ s : State, (∀ e ∈ frameBytes s, s.kindAt e.1 = .ram) →
    ∃ t u, exec .swi s = .next t ∧ exec .rti t = .next u ∧ u.a = s.a ∧ u.b = s.b ∧ u.x = s.x ∧ u.sp = s.sp ∧
      u.pc = s.pc ∧ u.cc = s.cc

/-- RTS after JSR or BSR returns to the instruction after the call with SP as before, when the two stack bytes are RAM
(45_branch_jump.md section 2). -/
def Obligations.RtsUndoesTheCall : Prop :=
  ∀ (s t : State) (m : AddrX) (rel : Byte), s.kindAt s.sp = .ram → s.kindAt (s.sp - 1) = .ram →
    (exec (.jsr m) s = .next t ∨ exec (.bsr rel) s = .next t) →
    ∃ u, exec .rts t = .next u ∧ u.pc = s.pc ∧ u.sp = s.sp ∧ u.a = s.a ∧ u.b = s.b ∧ u.x = s.x ∧ u.cc = s.cc

/-! ### Condition code register (46_ccr.md) -/

/-- 45_branch_jump.md R228 NOP: nothing beyond the fetch; 01h is its only encoding, 00h is unassigned. -/
def Obligations.NoOperationOnlyAdvances : Prop :=
  (∀ s, exec .nop s = .next s) ∧ EncodesInh .nop 0x01 2 ∧
    (∀ op b1 b2 : Byte, decodeOp op b1 b2 = .nop ↔ op = 0x01) ∧ ∀ b1 b2 : Byte, decodeOp 0x00 b1 b2 = .unassigned 0x00

/-- 46_ccr.md: R250 CLC, R252 CLV, R253 SEC, R255 SEV, R254 SEI: one flag each, nothing else (the blank cells are the spec's
general knowledge, log entry 17); an IRQ that is low when SEI completes is not accepted. -/
def Obligations.OneFlagInstructions : Prop :=
  (∀ s, exec .clc s = .next { s with cc := { s.cc with c := false } }) ∧
    (∀ s, exec .clv s = .next { s with cc := { s.cc with v := false } }) ∧
    (∀ s, exec .sec s = .next { s with cc := { s.cc with c := true } }) ∧
    (∀ s, exec .sei s = .next { s with cc := { s.cc with i := true } }) ∧
    (∀ s t, exec .sei s = .next t → irqAccepted t = false) ∧
    (∀ s, exec .sev s = .next { s with cc := { s.cc with v := true } }) ∧
    EncodesInh .clc 0x0C 2 ∧ EncodesInh .clv 0x0A 2 ∧ EncodesInh .sec 0x0D 2 ∧
    EncodesInh .sei 0x0F 2 ∧ EncodesInh .sev 0x0B 2

/-- 46_ccr.md: R251 CLI: with I_CLEAR_DELAY = 1 (the spec's open point D12, log entry 4) a change of I from 1 to 0 holds IRQ
off at the next boundary. -/
def Obligations.ClearInterruptMask : Prop :=
  (∀ s, exec .cli s = .next { s with
      cc := { s.cc with i := false }, irqHoldoff := s.irqHoldoff || (s.params.iClearDelay && s.cc.i) }) ∧
    (∀ s t, exec .cli s = .next t → s.irqHoldoff = false → s.irqLow = true →
      (irqAccepted t = true ↔ ¬ (s.params.iClearDelay = true ∧ s.cc.i = true))) ∧
    EncodesInh .cli 0x0E 2

/-- 46_ccr.md: R256 TAP, R257 TPA: TAP takes the six flags from A and is subject to I_CLEAR_DELAY (D12); TPA gives A the
register with bits 7 and 6 set (the spec's decision D17, log entry 16); TPA and then TAP leaves the flags as they were. -/
def Obligations.TransferWithConditionCodes : Prop :=
  (∀ s, exec .tap s = .next { s with
      cc := { h := s.a.getLsbD 5, i := s.a.getLsbD 4, n := s.a.getLsbD 3, z := s.a.getLsbD 2, v := s.a.getLsbD 1,
              c := s.a.getLsbD 0 },
      irqHoldoff := s.irqHoldoff || (s.params.iClearDelay && s.cc.i && !s.a.getLsbD 4) }) ∧
    (∀ s, Completes .tpa s (fun t => t = { s with a := t.a } ∧
      t.a.toNat = 192 + 32 * s.cc.h.toNat + 16 * s.cc.i.toNat + 8 * s.cc.n.toNat + 4 * s.cc.z.toNat + 2 * s.cc.v.toNat +
        s.cc.c.toNat)) ∧
    (∀ s, ∃ t u, exec .tpa s = .next t ∧ exec .tap t = .next u ∧ u.cc = s.cc) ∧
    EncodesInh .tap 0x06 2 ∧ EncodesInh .tpa 0x07 2

/-! ### The whole machine -/

/-- The invariant holds at reset. -/
def Obligations.ResetKeepsTheInvariant : Prop := MachineInv State.reset

/-- Every step keeps memory in canonical form (log entry 1) and the holdoff clear while I_CLEAR_DELAY is 0 (10_state.md
section 4). -/
def Obligations.StepKeepsTheInvariant : Prop := ∀ s t : State, MachineInv s → step s = .next t → MachineInv t

/-- 20_memory.md sections 4 and 7: a byte of memory changes over a step only where it is RAM and the step's record shows
the write of its new value; no step makes more than ten accesses (SWI: one byte fetched, seven stacked, two of the
vector); none changes the parameters or the inputs the host drives. -/
def Obligations.StepWritesOnlyRecordedBytesOfRam : Prop :=
  ∀ s t : State, step s = .next t →
    (∀ c, t.peek c ≠ s.peek c → s.kindAt c = .ram ∧ BusAccess.write c (t.peek c) ∈ t.bus) ∧ t.bus.length ≤ 10 ∧
      t.params = s.params ∧ t.halted = s.halted ∧ t.irqLow = s.irqLow ∧ t.resetActive = s.resetActive

/-- 10_state.md section 2 (R26, R27; blank cells: D19, log entry 17): only CLI, TAP and RTI clear the interrupt mask, only
SEI, SWI, TAP and RTI set it, and only additions, TAP and RTI write H. -/
def Obligations.FewInstructionsWriteTheMaskAndHalfCarry : Prop :=
  ∀ (i : Instr) (s t : State), exec i s = .next t →
    (s.cc.i = true → t.cc.i = false → i = .cli ∨ i = .tap ∨ i = .rti) ∧
    (s.cc.i = false → t.cc.i = true → i = .sei ∨ i = .swi ∨ i = .tap ∨ i = .rti) ∧
    (t.cc.h ≠ s.cc.h → (∃ m, i = .adda m ∨ i = .addb m ∨ i = .adca m ∨ i = .adcb m) ∨ i = .aba ∨ i = .tap ∨ i = .rti)

/-- 20_memory.md section 7 (R66) and 60_exceptions.md section 9 (R285), as the model gives the host its moves (log entries 11,
19): each move sets one input or the NMI latch or writes one byte of RAM, and leaves all the rest of the state; a second
NMI request while one is pending is merged with it (D11, log entry 16). -/
def Obligations.HostMovesLeaveTheRegisters : Prop :=
  (∀ (s : State) (v : Bool), applyHostMove (.resetLine v) s = { s with resetActive := v } ∧
    applyHostMove (.irqLine v) s = { s with irqLow := v } ∧ applyHostMove (.haltLine v) s = { s with halted := v }) ∧
    (∀ s : State, applyHostMove .nmiRequest s = { s with nmiPending := true } ∧
      applyHostMove .nmiRequest (applyHostMove .nmiRequest s) = applyHostMove .nmiRequest s) ∧
    (∀ (s : State) (a : Word) (v : Byte), StoresByte s (applyHostMove (.dmaWrite a v) s) a v ∧
      applyHostMove (.dmaWrite a v) s = { s with mem := (applyHostMove (.dmaWrite a v) s).mem }) ∧
    ∀ (mvs : List HostMove) (s : State), let t := applyHostMoves mvs s
      t = { s with resetActive := t.resetActive, irqLow := t.irqLow, halted := t.halted, nmiPending := t.nmiPending,
                   mem := t.mem } ∧ ∀ c, s.kindAt c ≠ .ram → t.peek c = s.peek c
end

