-- ==== Sys2Proof/Laws/Memory.lean ====
section
/-! SUPPORT. The laws of memory: a read after a write, and that every operation keeps the canonical form. -/

namespace Sys2Proof.Machine

theorem Memory.get_unlist (m : Memory) (a c : Nat) :
    Memory.get (Memory.unlist m a) c = if c = a then unlistedByte else Memory.get m c := by
  induction m with
  | nil => simp [Memory.unlist, Memory.get]
  | cons e rest ih =>
    obtain ⟨k, v⟩ := e
    by_cases hk : k = a <;> by_cases hc : k = c <;> simp_all [Memory.unlist, Memory.get]

theorem Memory.get_place (m : Memory) (a c : Nat) (v : Byte) (h : c = a → Memory.get m a = unlistedByte ∧
    ∀ e ∈ m, e.1 ≠ a) : Memory.get (Memory.place m a v) c = if c = a then v else Memory.get m c := by
  induction m with
  | nil => by_cases hc : a = c <;> simp_all [Memory.place, Memory.get, eq_comm]
  | cons e rest ih =>
    obtain ⟨k, w⟩ := e
    by_cases hca : c = a
    · subst hca
      obtain ⟨-, hne⟩ := h rfl
      have hk : k ≠ c := hne (k, w) (by simp)
      have hrest : Memory.get (Memory.place rest c v) c = v := by
        have hu : ∀ l : Memory, (∀ e ∈ l, e.1 ≠ c) → Memory.get l c = unlistedByte := by
          intro l hl
          induction l with
          | nil => rfl
          | cons e t iht =>
            obtain ⟨p, q⟩ := e
            have hp : p ≠ c := hl (p, q) (by simp)
            simpa [Memory.get, hp] using iht (fun e he => hl e (by simp [he]))
        have hn : ∀ e ∈ rest, e.1 ≠ c := fun e he => hne e (by simp [he])
        simpa using ih (fun _ => ⟨hu rest hn, hn⟩)
      by_cases hlt : c < k <;> simp [Memory.place, Memory.get, hlt, hk, hrest]
    · have ih' := ih (fun hc => absurd hc hca)
      have hac : a ≠ c := fun hac => hca hac.symm
      by_cases hlt : a < k
      · simp [Memory.place, Memory.get, hlt, hca, hac]
      · by_cases hkc : k = c
        · subst hkc
          simp [Memory.place, Memory.get, hlt, hca]
        · simpa [Memory.place, Memory.get, hlt, hca, hkc] using ih'

theorem Memory.unlist_ne (m : Memory) (a : Nat) : ∀ e ∈ Memory.unlist m a, e.1 ≠ a := by
  induction m with
  | nil => simp [Memory.unlist]
  | cons e rest ih =>
    obtain ⟨k, v⟩ := e
    by_cases hk : k = a
    · simpa [Memory.unlist, hk] using ih
    · intro e he
      simp only [Memory.unlist, hk, if_false, List.mem_cons] at he
      rcases he with rfl | he
      · exact hk
      · exact ih e he

/-- A read after a write gives the byte written at its address and the old byte everywhere else. -/
@[simp] theorem Memory.get_set (m : Memory) (a c : Nat) (v : Byte) :
    Memory.get (Memory.set m a v) c = if c = a then v else Memory.get m c := by
  unfold Memory.set
  split
  · next hv => subst hv; exact Memory.get_unlist m a c
  · rw [Memory.get_place _ _ _ _ fun _ => ⟨by simp [Memory.get_unlist], Memory.unlist_ne m a⟩]
    by_cases hc : c = a <;> simp [hc, Memory.get_unlist]

theorem Memory.wfFrom_mono {lo lo' : Nat} (h : lo' ≤ lo) {m : Memory} (hm : Memory.wfFrom lo m = true) :
    Memory.wfFrom lo' m = true := by
  cases m with
  | nil => rfl
  | cons e rest => simp_all [Memory.wfFrom]; omega

theorem Memory.wfFrom_unlist {m : Memory} {lo : Nat} (a : Nat) (h : Memory.wfFrom lo m = true) :
    Memory.wfFrom lo (Memory.unlist m a) = true := by
  induction m generalizing lo with
  | nil => rfl
  | cons e rest ih =>
    obtain ⟨k, v⟩ := e
    simp only [Memory.wfFrom, Bool.and_eq_true, decide_eq_true_eq] at h
    by_cases hk : k = a
    · simp only [Memory.unlist, hk, if_true]
      exact ih (Memory.wfFrom_mono (by omega) h.2)
    · simp [Memory.unlist, hk, Memory.wfFrom, ih h.2, h]

theorem Memory.wfFrom_place {m : Memory} {lo a : Nat} {v : Byte} (h : Memory.wfFrom lo m = true)
    (hne : ∀ e ∈ m, e.1 ≠ a) (hlo : lo ≤ a) (ha : a < 65536) (hv : v ≠ unlistedByte) :
    Memory.wfFrom lo (Memory.place m a v) = true := by
  induction m generalizing lo with
  | nil => simp [Memory.place, Memory.wfFrom, hlo, ha, hv]
  | cons e rest ih =>
    obtain ⟨k, w⟩ := e
    have hk : k ≠ a := hne (k, w) (by simp)
    simp only [Memory.wfFrom, Bool.and_eq_true, decide_eq_true_eq] at h
    by_cases hlt : a < k
    · simp [Memory.place, hlt, Memory.wfFrom, hlo, ha, hv, h]
    · have := ih h.2 (fun e he => hne e (by simp [he])) (by omega)
      simp [Memory.place, hlt, Memory.wfFrom, this, h]

/-- A write to an address of the space keeps the canonical form. -/
theorem Memory.wf_set {m : Memory} {a : Nat} (v : Byte) (h : Memory.wf m = true) (ha : a < 65536) :
    Memory.wf (Memory.set m a v) = true := by
  unfold Memory.set
  split
  · exact Memory.wfFrom_unlist a h
  · next hv => exact Memory.wfFrom_place (Memory.wfFrom_unlist a h) (Memory.unlist_ne m a) (by omega) ha hv

theorem Memory.get_of_lt {m : Memory} {lo a : Nat} (h : Memory.wfFrom lo m = true) (ha : a < lo) :
    Memory.get m a = unlistedByte := by
  induction m generalizing lo with
  | nil => rfl
  | cons e rest ih =>
    obtain ⟨k, v⟩ := e
    simp only [Memory.wfFrom, Bool.and_eq_true, decide_eq_true_eq] at h
    have hk : k ≠ a := by omega
    simpa [Memory.get, hk] using ih h.2 (by omega)

theorem Memory.ext_of_wfFrom {m m' : Memory} {lo : Nat} (h : Memory.wfFrom lo m = true)
    (h' : Memory.wfFrom lo m' = true) (hg : ∀ a, Memory.get m a = Memory.get m' a) : m = m' := by
  induction m generalizing lo m' with
  | nil =>
    cases m' with
    | nil => rfl
    | cons e rest =>
      obtain ⟨k, v⟩ := e
      have := hg k
      simp only [Memory.wfFrom, Bool.and_eq_true, decide_eq_true_eq] at h'
      simp_all [Memory.get]
  | cons e rest ih =>
    obtain ⟨k, v⟩ := e
    simp only [Memory.wfFrom, Bool.and_eq_true, decide_eq_true_eq] at h
    cases m' with
    | nil => have := hg k; simp_all [Memory.get]
    | cons e' rest' =>
      obtain ⟨k', v'⟩ := e'
      simp only [Memory.wfFrom, Bool.and_eq_true, decide_eq_true_eq] at h'
      have hkk : k = k' := by
        rcases Nat.lt_trichotomy k k' with hlt | heq | hgt
        · have h1 := hg k
          have h2 : Memory.get rest' k = unlistedByte := Memory.get_of_lt h'.2 (by omega)
          have h3 : k' ≠ k := by omega
          simp [Memory.get, h3, h2] at h1
          exact absurd h1 h.1.2
        · exact heq
        · have h1 := hg k'
          have h2 : Memory.get rest k' = unlistedByte := Memory.get_of_lt h.2 (by omega)
          have h3 : k ≠ k' := by omega
          simp [Memory.get, h3, h2] at h1
          exact absurd h1.symm h'.1.2
      subst hkk
      have hv : v = v' := by simpa [Memory.get] using hg k
      subst hv
      have : rest = rest' := ih h.2 h'.2 (fun a => by
        by_cases hka : k = a
        · subst hka
          rw [Memory.get_of_lt h.2 (by omega), Memory.get_of_lt h'.2 (by omega)]
        · simpa [Memory.get, hka] using hg a)
      rw [this]

/-- Two memories in canonical form that read alike everywhere are the same data. -/
theorem Memory.ext_of_wf {m m' : Memory} (h : Memory.wf m = true) (h' : Memory.wf m' = true)
    (hg : ∀ a, Memory.get m a = Memory.get m' a) : m = m' := Memory.ext_of_wfFrom h h' hg

end Sys2Proof.Machine
end

