-- ==== Sys2Proof/Laws/State.lean ====
section
/-! SUPPORT. One lemma per field per update of State, each true by rfl: no proof unfolds a record update. -/

namespace Sys2Proof.Machine

@[simp] theorem State.setA_a (s : State) (v : Byte) : (s.setA v).a = v := rfl
@[simp] theorem State.setA_b (s : State) (v : Byte) : (s.setA v).b = s.b := rfl
@[simp] theorem State.setA_x (s : State) (v : Byte) : (s.setA v).x = s.x := rfl
@[simp] theorem State.setA_sp (s : State) (v : Byte) : (s.setA v).sp = s.sp := rfl
@[simp] theorem State.setA_pc (s : State) (v : Byte) : (s.setA v).pc = s.pc := rfl
@[simp] theorem State.setA_cc (s : State) (v : Byte) : (s.setA v).cc = s.cc := rfl
@[simp] theorem State.setA_waiting (s : State) (v : Byte) : (s.setA v).waiting = s.waiting := rfl
@[simp] theorem State.setA_nmiPending (s : State) (v : Byte) : (s.setA v).nmiPending = s.nmiPending := rfl
@[simp] theorem State.setA_irqHoldoff (s : State) (v : Byte) : (s.setA v).irqHoldoff = s.irqHoldoff := rfl
@[simp] theorem State.setA_halted (s : State) (v : Byte) : (s.setA v).halted = s.halted := rfl
@[simp] theorem State.setA_irqLow (s : State) (v : Byte) : (s.setA v).irqLow = s.irqLow := rfl
@[simp] theorem State.setA_resetActive (s : State) (v : Byte) : (s.setA v).resetActive = s.resetActive := rfl
@[simp] theorem State.setA_mem (s : State) (v : Byte) : (s.setA v).mem = s.mem := rfl
@[simp] theorem State.setA_params (s : State) (v : Byte) : (s.setA v).params = s.params := rfl
@[simp] theorem State.setA_bus (s : State) (v : Byte) : (s.setA v).bus = s.bus := rfl
@[simp] theorem State.setA_cycles (s : State) (v : Byte) : (s.setA v).cycles = s.cycles := rfl
@[simp] theorem State.setA_draws (s : State) (v : Byte) : (s.setA v).draws = s.draws := rfl

@[simp] theorem State.setB_a (s : State) (v : Byte) : (s.setB v).a = s.a := rfl
@[simp] theorem State.setB_b (s : State) (v : Byte) : (s.setB v).b = v := rfl
@[simp] theorem State.setB_x (s : State) (v : Byte) : (s.setB v).x = s.x := rfl
@[simp] theorem State.setB_sp (s : State) (v : Byte) : (s.setB v).sp = s.sp := rfl
@[simp] theorem State.setB_pc (s : State) (v : Byte) : (s.setB v).pc = s.pc := rfl
@[simp] theorem State.setB_cc (s : State) (v : Byte) : (s.setB v).cc = s.cc := rfl
@[simp] theorem State.setB_waiting (s : State) (v : Byte) : (s.setB v).waiting = s.waiting := rfl
@[simp] theorem State.setB_nmiPending (s : State) (v : Byte) : (s.setB v).nmiPending = s.nmiPending := rfl
@[simp] theorem State.setB_irqHoldoff (s : State) (v : Byte) : (s.setB v).irqHoldoff = s.irqHoldoff := rfl
@[simp] theorem State.setB_halted (s : State) (v : Byte) : (s.setB v).halted = s.halted := rfl
@[simp] theorem State.setB_irqLow (s : State) (v : Byte) : (s.setB v).irqLow = s.irqLow := rfl
@[simp] theorem State.setB_resetActive (s : State) (v : Byte) : (s.setB v).resetActive = s.resetActive := rfl
@[simp] theorem State.setB_mem (s : State) (v : Byte) : (s.setB v).mem = s.mem := rfl
@[simp] theorem State.setB_params (s : State) (v : Byte) : (s.setB v).params = s.params := rfl
@[simp] theorem State.setB_bus (s : State) (v : Byte) : (s.setB v).bus = s.bus := rfl
@[simp] theorem State.setB_cycles (s : State) (v : Byte) : (s.setB v).cycles = s.cycles := rfl
@[simp] theorem State.setB_draws (s : State) (v : Byte) : (s.setB v).draws = s.draws := rfl

@[simp] theorem State.setX_a (s : State) (v : Word) : (s.setX v).a = s.a := rfl
@[simp] theorem State.setX_b (s : State) (v : Word) : (s.setX v).b = s.b := rfl
@[simp] theorem State.setX_x (s : State) (v : Word) : (s.setX v).x = v := rfl
@[simp] theorem State.setX_sp (s : State) (v : Word) : (s.setX v).sp = s.sp := rfl
@[simp] theorem State.setX_pc (s : State) (v : Word) : (s.setX v).pc = s.pc := rfl
@[simp] theorem State.setX_cc (s : State) (v : Word) : (s.setX v).cc = s.cc := rfl
@[simp] theorem State.setX_waiting (s : State) (v : Word) : (s.setX v).waiting = s.waiting := rfl
@[simp] theorem State.setX_nmiPending (s : State) (v : Word) : (s.setX v).nmiPending = s.nmiPending := rfl
@[simp] theorem State.setX_irqHoldoff (s : State) (v : Word) : (s.setX v).irqHoldoff = s.irqHoldoff := rfl
@[simp] theorem State.setX_halted (s : State) (v : Word) : (s.setX v).halted = s.halted := rfl
@[simp] theorem State.setX_irqLow (s : State) (v : Word) : (s.setX v).irqLow = s.irqLow := rfl
@[simp] theorem State.setX_resetActive (s : State) (v : Word) : (s.setX v).resetActive = s.resetActive := rfl
@[simp] theorem State.setX_mem (s : State) (v : Word) : (s.setX v).mem = s.mem := rfl
@[simp] theorem State.setX_params (s : State) (v : Word) : (s.setX v).params = s.params := rfl
@[simp] theorem State.setX_bus (s : State) (v : Word) : (s.setX v).bus = s.bus := rfl
@[simp] theorem State.setX_cycles (s : State) (v : Word) : (s.setX v).cycles = s.cycles := rfl
@[simp] theorem State.setX_draws (s : State) (v : Word) : (s.setX v).draws = s.draws := rfl

@[simp] theorem State.setSp_a (s : State) (v : Word) : (s.setSp v).a = s.a := rfl
@[simp] theorem State.setSp_b (s : State) (v : Word) : (s.setSp v).b = s.b := rfl
@[simp] theorem State.setSp_x (s : State) (v : Word) : (s.setSp v).x = s.x := rfl
@[simp] theorem State.setSp_sp (s : State) (v : Word) : (s.setSp v).sp = v := rfl
@[simp] theorem State.setSp_pc (s : State) (v : Word) : (s.setSp v).pc = s.pc := rfl
@[simp] theorem State.setSp_cc (s : State) (v : Word) : (s.setSp v).cc = s.cc := rfl
@[simp] theorem State.setSp_waiting (s : State) (v : Word) : (s.setSp v).waiting = s.waiting := rfl
@[simp] theorem State.setSp_nmiPending (s : State) (v : Word) : (s.setSp v).nmiPending = s.nmiPending := rfl
@[simp] theorem State.setSp_irqHoldoff (s : State) (v : Word) : (s.setSp v).irqHoldoff = s.irqHoldoff := rfl
@[simp] theorem State.setSp_halted (s : State) (v : Word) : (s.setSp v).halted = s.halted := rfl
@[simp] theorem State.setSp_irqLow (s : State) (v : Word) : (s.setSp v).irqLow = s.irqLow := rfl
@[simp] theorem State.setSp_resetActive (s : State) (v : Word) : (s.setSp v).resetActive = s.resetActive := rfl
@[simp] theorem State.setSp_mem (s : State) (v : Word) : (s.setSp v).mem = s.mem := rfl
@[simp] theorem State.setSp_params (s : State) (v : Word) : (s.setSp v).params = s.params := rfl
@[simp] theorem State.setSp_bus (s : State) (v : Word) : (s.setSp v).bus = s.bus := rfl
@[simp] theorem State.setSp_cycles (s : State) (v : Word) : (s.setSp v).cycles = s.cycles := rfl
@[simp] theorem State.setSp_draws (s : State) (v : Word) : (s.setSp v).draws = s.draws := rfl

@[simp] theorem State.setPc_a (s : State) (v : Word) : (s.setPc v).a = s.a := rfl
@[simp] theorem State.setPc_b (s : State) (v : Word) : (s.setPc v).b = s.b := rfl
@[simp] theorem State.setPc_x (s : State) (v : Word) : (s.setPc v).x = s.x := rfl
@[simp] theorem State.setPc_sp (s : State) (v : Word) : (s.setPc v).sp = s.sp := rfl
@[simp] theorem State.setPc_pc (s : State) (v : Word) : (s.setPc v).pc = v := rfl
@[simp] theorem State.setPc_cc (s : State) (v : Word) : (s.setPc v).cc = s.cc := rfl
@[simp] theorem State.setPc_waiting (s : State) (v : Word) : (s.setPc v).waiting = s.waiting := rfl
@[simp] theorem State.setPc_nmiPending (s : State) (v : Word) : (s.setPc v).nmiPending = s.nmiPending := rfl
@[simp] theorem State.setPc_irqHoldoff (s : State) (v : Word) : (s.setPc v).irqHoldoff = s.irqHoldoff := rfl
@[simp] theorem State.setPc_halted (s : State) (v : Word) : (s.setPc v).halted = s.halted := rfl
@[simp] theorem State.setPc_irqLow (s : State) (v : Word) : (s.setPc v).irqLow = s.irqLow := rfl
@[simp] theorem State.setPc_resetActive (s : State) (v : Word) : (s.setPc v).resetActive = s.resetActive := rfl
@[simp] theorem State.setPc_mem (s : State) (v : Word) : (s.setPc v).mem = s.mem := rfl
@[simp] theorem State.setPc_params (s : State) (v : Word) : (s.setPc v).params = s.params := rfl
@[simp] theorem State.setPc_bus (s : State) (v : Word) : (s.setPc v).bus = s.bus := rfl
@[simp] theorem State.setPc_cycles (s : State) (v : Word) : (s.setPc v).cycles = s.cycles := rfl
@[simp] theorem State.setPc_draws (s : State) (v : Word) : (s.setPc v).draws = s.draws := rfl

@[simp] theorem State.setCc_a (s : State) (v : Flags) : (s.setCc v).a = s.a := rfl
@[simp] theorem State.setCc_b (s : State) (v : Flags) : (s.setCc v).b = s.b := rfl
@[simp] theorem State.setCc_x (s : State) (v : Flags) : (s.setCc v).x = s.x := rfl
@[simp] theorem State.setCc_sp (s : State) (v : Flags) : (s.setCc v).sp = s.sp := rfl
@[simp] theorem State.setCc_pc (s : State) (v : Flags) : (s.setCc v).pc = s.pc := rfl
@[simp] theorem State.setCc_cc (s : State) (v : Flags) : (s.setCc v).cc = v := rfl
@[simp] theorem State.setCc_waiting (s : State) (v : Flags) : (s.setCc v).waiting = s.waiting := rfl
@[simp] theorem State.setCc_nmiPending (s : State) (v : Flags) : (s.setCc v).nmiPending = s.nmiPending := rfl
@[simp] theorem State.setCc_irqHoldoff (s : State) (v : Flags) : (s.setCc v).irqHoldoff = s.irqHoldoff := rfl
@[simp] theorem State.setCc_halted (s : State) (v : Flags) : (s.setCc v).halted = s.halted := rfl
@[simp] theorem State.setCc_irqLow (s : State) (v : Flags) : (s.setCc v).irqLow = s.irqLow := rfl
@[simp] theorem State.setCc_resetActive (s : State) (v : Flags) : (s.setCc v).resetActive = s.resetActive := rfl
@[simp] theorem State.setCc_mem (s : State) (v : Flags) : (s.setCc v).mem = s.mem := rfl
@[simp] theorem State.setCc_params (s : State) (v : Flags) : (s.setCc v).params = s.params := rfl
@[simp] theorem State.setCc_bus (s : State) (v : Flags) : (s.setCc v).bus = s.bus := rfl
@[simp] theorem State.setCc_cycles (s : State) (v : Flags) : (s.setCc v).cycles = s.cycles := rfl
@[simp] theorem State.setCc_draws (s : State) (v : Flags) : (s.setCc v).draws = s.draws := rfl

@[simp] theorem State.setWaiting_a (s : State) (v : Bool) : (s.setWaiting v).a = s.a := rfl
@[simp] theorem State.setWaiting_b (s : State) (v : Bool) : (s.setWaiting v).b = s.b := rfl
@[simp] theorem State.setWaiting_x (s : State) (v : Bool) : (s.setWaiting v).x = s.x := rfl
@[simp] theorem State.setWaiting_sp (s : State) (v : Bool) : (s.setWaiting v).sp = s.sp := rfl
@[simp] theorem State.setWaiting_pc (s : State) (v : Bool) : (s.setWaiting v).pc = s.pc := rfl
@[simp] theorem State.setWaiting_cc (s : State) (v : Bool) : (s.setWaiting v).cc = s.cc := rfl
@[simp] theorem State.setWaiting_waiting (s : State) (v : Bool) : (s.setWaiting v).waiting = v := rfl
@[simp] theorem State.setWaiting_nmiPending (s : State) (v : Bool) : (s.setWaiting v).nmiPending = s.nmiPending := rfl
@[simp] theorem State.setWaiting_irqHoldoff (s : State) (v : Bool) : (s.setWaiting v).irqHoldoff = s.irqHoldoff := rfl
@[simp] theorem State.setWaiting_halted (s : State) (v : Bool) : (s.setWaiting v).halted = s.halted := rfl
@[simp] theorem State.setWaiting_irqLow (s : State) (v : Bool) : (s.setWaiting v).irqLow = s.irqLow := rfl
@[simp] theorem State.setWaiting_resetActive (s : State) (v : Bool) : (s.setWaiting v).resetActive = s.resetActive := rfl
@[simp] theorem State.setWaiting_mem (s : State) (v : Bool) : (s.setWaiting v).mem = s.mem := rfl
@[simp] theorem State.setWaiting_params (s : State) (v : Bool) : (s.setWaiting v).params = s.params := rfl
@[simp] theorem State.setWaiting_bus (s : State) (v : Bool) : (s.setWaiting v).bus = s.bus := rfl
@[simp] theorem State.setWaiting_cycles (s : State) (v : Bool) : (s.setWaiting v).cycles = s.cycles := rfl
@[simp] theorem State.setWaiting_draws (s : State) (v : Bool) : (s.setWaiting v).draws = s.draws := rfl

@[simp] theorem State.setNmiPending_a (s : State) (v : Bool) : (s.setNmiPending v).a = s.a := rfl
@[simp] theorem State.setNmiPending_b (s : State) (v : Bool) : (s.setNmiPending v).b = s.b := rfl
@[simp] theorem State.setNmiPending_x (s : State) (v : Bool) : (s.setNmiPending v).x = s.x := rfl
@[simp] theorem State.setNmiPending_sp (s : State) (v : Bool) : (s.setNmiPending v).sp = s.sp := rfl
@[simp] theorem State.setNmiPending_pc (s : State) (v : Bool) : (s.setNmiPending v).pc = s.pc := rfl
@[simp] theorem State.setNmiPending_cc (s : State) (v : Bool) : (s.setNmiPending v).cc = s.cc := rfl
@[simp] theorem State.setNmiPending_waiting (s : State) (v : Bool) : (s.setNmiPending v).waiting = s.waiting := rfl
@[simp] theorem State.setNmiPending_nmiPending (s : State) (v : Bool) : (s.setNmiPending v).nmiPending = v := rfl
@[simp] theorem State.setNmiPending_irqHoldoff (s : State) (v : Bool) : (s.setNmiPending v).irqHoldoff = s.irqHoldoff := rfl
@[simp] theorem State.setNmiPending_halted (s : State) (v : Bool) : (s.setNmiPending v).halted = s.halted := rfl
@[simp] theorem State.setNmiPending_irqLow (s : State) (v : Bool) : (s.setNmiPending v).irqLow = s.irqLow := rfl
@[simp] theorem State.setNmiPending_resetActive (s : State) (v : Bool) : (s.setNmiPending v).resetActive = s.resetActive := rfl
@[simp] theorem State.setNmiPending_mem (s : State) (v : Bool) : (s.setNmiPending v).mem = s.mem := rfl
@[simp] theorem State.setNmiPending_params (s : State) (v : Bool) : (s.setNmiPending v).params = s.params := rfl
@[simp] theorem State.setNmiPending_bus (s : State) (v : Bool) : (s.setNmiPending v).bus = s.bus := rfl
@[simp] theorem State.setNmiPending_cycles (s : State) (v : Bool) : (s.setNmiPending v).cycles = s.cycles := rfl
@[simp] theorem State.setNmiPending_draws (s : State) (v : Bool) : (s.setNmiPending v).draws = s.draws := rfl

@[simp] theorem State.setIrqHoldoff_a (s : State) (v : Bool) : (s.setIrqHoldoff v).a = s.a := rfl
@[simp] theorem State.setIrqHoldoff_b (s : State) (v : Bool) : (s.setIrqHoldoff v).b = s.b := rfl
@[simp] theorem State.setIrqHoldoff_x (s : State) (v : Bool) : (s.setIrqHoldoff v).x = s.x := rfl
@[simp] theorem State.setIrqHoldoff_sp (s : State) (v : Bool) : (s.setIrqHoldoff v).sp = s.sp := rfl
@[simp] theorem State.setIrqHoldoff_pc (s : State) (v : Bool) : (s.setIrqHoldoff v).pc = s.pc := rfl
@[simp] theorem State.setIrqHoldoff_cc (s : State) (v : Bool) : (s.setIrqHoldoff v).cc = s.cc := rfl
@[simp] theorem State.setIrqHoldoff_waiting (s : State) (v : Bool) : (s.setIrqHoldoff v).waiting = s.waiting := rfl
@[simp] theorem State.setIrqHoldoff_nmiPending (s : State) (v : Bool) : (s.setIrqHoldoff v).nmiPending = s.nmiPending := rfl
@[simp] theorem State.setIrqHoldoff_irqHoldoff (s : State) (v : Bool) : (s.setIrqHoldoff v).irqHoldoff = v := rfl
@[simp] theorem State.setIrqHoldoff_halted (s : State) (v : Bool) : (s.setIrqHoldoff v).halted = s.halted := rfl
@[simp] theorem State.setIrqHoldoff_irqLow (s : State) (v : Bool) : (s.setIrqHoldoff v).irqLow = s.irqLow := rfl
@[simp] theorem State.setIrqHoldoff_resetActive (s : State) (v : Bool) : (s.setIrqHoldoff v).resetActive = s.resetActive := rfl
@[simp] theorem State.setIrqHoldoff_mem (s : State) (v : Bool) : (s.setIrqHoldoff v).mem = s.mem := rfl
@[simp] theorem State.setIrqHoldoff_params (s : State) (v : Bool) : (s.setIrqHoldoff v).params = s.params := rfl
@[simp] theorem State.setIrqHoldoff_bus (s : State) (v : Bool) : (s.setIrqHoldoff v).bus = s.bus := rfl
@[simp] theorem State.setIrqHoldoff_cycles (s : State) (v : Bool) : (s.setIrqHoldoff v).cycles = s.cycles := rfl
@[simp] theorem State.setIrqHoldoff_draws (s : State) (v : Bool) : (s.setIrqHoldoff v).draws = s.draws := rfl

@[simp] theorem State.setHalted_a (s : State) (v : Bool) : (s.setHalted v).a = s.a := rfl
@[simp] theorem State.setHalted_b (s : State) (v : Bool) : (s.setHalted v).b = s.b := rfl
@[simp] theorem State.setHalted_x (s : State) (v : Bool) : (s.setHalted v).x = s.x := rfl
@[simp] theorem State.setHalted_sp (s : State) (v : Bool) : (s.setHalted v).sp = s.sp := rfl
@[simp] theorem State.setHalted_pc (s : State) (v : Bool) : (s.setHalted v).pc = s.pc := rfl
@[simp] theorem State.setHalted_cc (s : State) (v : Bool) : (s.setHalted v).cc = s.cc := rfl
@[simp] theorem State.setHalted_waiting (s : State) (v : Bool) : (s.setHalted v).waiting = s.waiting := rfl
@[simp] theorem State.setHalted_nmiPending (s : State) (v : Bool) : (s.setHalted v).nmiPending = s.nmiPending := rfl
@[simp] theorem State.setHalted_irqHoldoff (s : State) (v : Bool) : (s.setHalted v).irqHoldoff = s.irqHoldoff := rfl
@[simp] theorem State.setHalted_halted (s : State) (v : Bool) : (s.setHalted v).halted = v := rfl
@[simp] theorem State.setHalted_irqLow (s : State) (v : Bool) : (s.setHalted v).irqLow = s.irqLow := rfl
@[simp] theorem State.setHalted_resetActive (s : State) (v : Bool) : (s.setHalted v).resetActive = s.resetActive := rfl
@[simp] theorem State.setHalted_mem (s : State) (v : Bool) : (s.setHalted v).mem = s.mem := rfl
@[simp] theorem State.setHalted_params (s : State) (v : Bool) : (s.setHalted v).params = s.params := rfl
@[simp] theorem State.setHalted_bus (s : State) (v : Bool) : (s.setHalted v).bus = s.bus := rfl
@[simp] theorem State.setHalted_cycles (s : State) (v : Bool) : (s.setHalted v).cycles = s.cycles := rfl
@[simp] theorem State.setHalted_draws (s : State) (v : Bool) : (s.setHalted v).draws = s.draws := rfl

@[simp] theorem State.setIrqLow_a (s : State) (v : Bool) : (s.setIrqLow v).a = s.a := rfl
@[simp] theorem State.setIrqLow_b (s : State) (v : Bool) : (s.setIrqLow v).b = s.b := rfl
@[simp] theorem State.setIrqLow_x (s : State) (v : Bool) : (s.setIrqLow v).x = s.x := rfl
@[simp] theorem State.setIrqLow_sp (s : State) (v : Bool) : (s.setIrqLow v).sp = s.sp := rfl
@[simp] theorem State.setIrqLow_pc (s : State) (v : Bool) : (s.setIrqLow v).pc = s.pc := rfl
@[simp] theorem State.setIrqLow_cc (s : State) (v : Bool) : (s.setIrqLow v).cc = s.cc := rfl
@[simp] theorem State.setIrqLow_waiting (s : State) (v : Bool) : (s.setIrqLow v).waiting = s.waiting := rfl
@[simp] theorem State.setIrqLow_nmiPending (s : State) (v : Bool) : (s.setIrqLow v).nmiPending = s.nmiPending := rfl
@[simp] theorem State.setIrqLow_irqHoldoff (s : State) (v : Bool) : (s.setIrqLow v).irqHoldoff = s.irqHoldoff := rfl
@[simp] theorem State.setIrqLow_halted (s : State) (v : Bool) : (s.setIrqLow v).halted = s.halted := rfl
@[simp] theorem State.setIrqLow_irqLow (s : State) (v : Bool) : (s.setIrqLow v).irqLow = v := rfl
@[simp] theorem State.setIrqLow_resetActive (s : State) (v : Bool) : (s.setIrqLow v).resetActive = s.resetActive := rfl
@[simp] theorem State.setIrqLow_mem (s : State) (v : Bool) : (s.setIrqLow v).mem = s.mem := rfl
@[simp] theorem State.setIrqLow_params (s : State) (v : Bool) : (s.setIrqLow v).params = s.params := rfl
@[simp] theorem State.setIrqLow_bus (s : State) (v : Bool) : (s.setIrqLow v).bus = s.bus := rfl
@[simp] theorem State.setIrqLow_cycles (s : State) (v : Bool) : (s.setIrqLow v).cycles = s.cycles := rfl
@[simp] theorem State.setIrqLow_draws (s : State) (v : Bool) : (s.setIrqLow v).draws = s.draws := rfl

@[simp] theorem State.setResetActive_a (s : State) (v : Bool) : (s.setResetActive v).a = s.a := rfl
@[simp] theorem State.setResetActive_b (s : State) (v : Bool) : (s.setResetActive v).b = s.b := rfl
@[simp] theorem State.setResetActive_x (s : State) (v : Bool) : (s.setResetActive v).x = s.x := rfl
@[simp] theorem State.setResetActive_sp (s : State) (v : Bool) : (s.setResetActive v).sp = s.sp := rfl
@[simp] theorem State.setResetActive_pc (s : State) (v : Bool) : (s.setResetActive v).pc = s.pc := rfl
@[simp] theorem State.setResetActive_cc (s : State) (v : Bool) : (s.setResetActive v).cc = s.cc := rfl
@[simp] theorem State.setResetActive_waiting (s : State) (v : Bool) : (s.setResetActive v).waiting = s.waiting := rfl
@[simp] theorem State.setResetActive_nmiPending (s : State) (v : Bool) : (s.setResetActive v).nmiPending = s.nmiPending := rfl
@[simp] theorem State.setResetActive_irqHoldoff (s : State) (v : Bool) : (s.setResetActive v).irqHoldoff = s.irqHoldoff := rfl
@[simp] theorem State.setResetActive_halted (s : State) (v : Bool) : (s.setResetActive v).halted = s.halted := rfl
@[simp] theorem State.setResetActive_irqLow (s : State) (v : Bool) : (s.setResetActive v).irqLow = s.irqLow := rfl
@[simp] theorem State.setResetActive_resetActive (s : State) (v : Bool) : (s.setResetActive v).resetActive = v := rfl
@[simp] theorem State.setResetActive_mem (s : State) (v : Bool) : (s.setResetActive v).mem = s.mem := rfl
@[simp] theorem State.setResetActive_params (s : State) (v : Bool) : (s.setResetActive v).params = s.params := rfl
@[simp] theorem State.setResetActive_bus (s : State) (v : Bool) : (s.setResetActive v).bus = s.bus := rfl
@[simp] theorem State.setResetActive_cycles (s : State) (v : Bool) : (s.setResetActive v).cycles = s.cycles := rfl
@[simp] theorem State.setResetActive_draws (s : State) (v : Bool) : (s.setResetActive v).draws = s.draws := rfl

@[simp] theorem State.setMem_a (s : State) (v : Memory) : (s.setMem v).a = s.a := rfl
@[simp] theorem State.setMem_b (s : State) (v : Memory) : (s.setMem v).b = s.b := rfl
@[simp] theorem State.setMem_x (s : State) (v : Memory) : (s.setMem v).x = s.x := rfl
@[simp] theorem State.setMem_sp (s : State) (v : Memory) : (s.setMem v).sp = s.sp := rfl
@[simp] theorem State.setMem_pc (s : State) (v : Memory) : (s.setMem v).pc = s.pc := rfl
@[simp] theorem State.setMem_cc (s : State) (v : Memory) : (s.setMem v).cc = s.cc := rfl
@[simp] theorem State.setMem_waiting (s : State) (v : Memory) : (s.setMem v).waiting = s.waiting := rfl
@[simp] theorem State.setMem_nmiPending (s : State) (v : Memory) : (s.setMem v).nmiPending = s.nmiPending := rfl
@[simp] theorem State.setMem_irqHoldoff (s : State) (v : Memory) : (s.setMem v).irqHoldoff = s.irqHoldoff := rfl
@[simp] theorem State.setMem_halted (s : State) (v : Memory) : (s.setMem v).halted = s.halted := rfl
@[simp] theorem State.setMem_irqLow (s : State) (v : Memory) : (s.setMem v).irqLow = s.irqLow := rfl
@[simp] theorem State.setMem_resetActive (s : State) (v : Memory) : (s.setMem v).resetActive = s.resetActive := rfl
@[simp] theorem State.setMem_mem (s : State) (v : Memory) : (s.setMem v).mem = v := rfl
@[simp] theorem State.setMem_params (s : State) (v : Memory) : (s.setMem v).params = s.params := rfl
@[simp] theorem State.setMem_bus (s : State) (v : Memory) : (s.setMem v).bus = s.bus := rfl
@[simp] theorem State.setMem_cycles (s : State) (v : Memory) : (s.setMem v).cycles = s.cycles := rfl
@[simp] theorem State.setMem_draws (s : State) (v : Memory) : (s.setMem v).draws = s.draws := rfl

@[simp] theorem State.setParams_a (s : State) (v : Params) : (s.setParams v).a = s.a := rfl
@[simp] theorem State.setParams_b (s : State) (v : Params) : (s.setParams v).b = s.b := rfl
@[simp] theorem State.setParams_x (s : State) (v : Params) : (s.setParams v).x = s.x := rfl
@[simp] theorem State.setParams_sp (s : State) (v : Params) : (s.setParams v).sp = s.sp := rfl
@[simp] theorem State.setParams_pc (s : State) (v : Params) : (s.setParams v).pc = s.pc := rfl
@[simp] theorem State.setParams_cc (s : State) (v : Params) : (s.setParams v).cc = s.cc := rfl
@[simp] theorem State.setParams_waiting (s : State) (v : Params) : (s.setParams v).waiting = s.waiting := rfl
@[simp] theorem State.setParams_nmiPending (s : State) (v : Params) : (s.setParams v).nmiPending = s.nmiPending := rfl
@[simp] theorem State.setParams_irqHoldoff (s : State) (v : Params) : (s.setParams v).irqHoldoff = s.irqHoldoff := rfl
@[simp] theorem State.setParams_halted (s : State) (v : Params) : (s.setParams v).halted = s.halted := rfl
@[simp] theorem State.setParams_irqLow (s : State) (v : Params) : (s.setParams v).irqLow = s.irqLow := rfl
@[simp] theorem State.setParams_resetActive (s : State) (v : Params) : (s.setParams v).resetActive = s.resetActive := rfl
@[simp] theorem State.setParams_mem (s : State) (v : Params) : (s.setParams v).mem = s.mem := rfl
@[simp] theorem State.setParams_params (s : State) (v : Params) : (s.setParams v).params = v := rfl
@[simp] theorem State.setParams_bus (s : State) (v : Params) : (s.setParams v).bus = s.bus := rfl
@[simp] theorem State.setParams_cycles (s : State) (v : Params) : (s.setParams v).cycles = s.cycles := rfl
@[simp] theorem State.setParams_draws (s : State) (v : Params) : (s.setParams v).draws = s.draws := rfl

@[simp] theorem State.setBus_a (s : State) (v : List BusAccess) : (s.setBus v).a = s.a := rfl
@[simp] theorem State.setBus_b (s : State) (v : List BusAccess) : (s.setBus v).b = s.b := rfl
@[simp] theorem State.setBus_x (s : State) (v : List BusAccess) : (s.setBus v).x = s.x := rfl
@[simp] theorem State.setBus_sp (s : State) (v : List BusAccess) : (s.setBus v).sp = s.sp := rfl
@[simp] theorem State.setBus_pc (s : State) (v : List BusAccess) : (s.setBus v).pc = s.pc := rfl
@[simp] theorem State.setBus_cc (s : State) (v : List BusAccess) : (s.setBus v).cc = s.cc := rfl
@[simp] theorem State.setBus_waiting (s : State) (v : List BusAccess) : (s.setBus v).waiting = s.waiting := rfl
@[simp] theorem State.setBus_nmiPending (s : State) (v : List BusAccess) : (s.setBus v).nmiPending = s.nmiPending := rfl
@[simp] theorem State.setBus_irqHoldoff (s : State) (v : List BusAccess) : (s.setBus v).irqHoldoff = s.irqHoldoff := rfl
@[simp] theorem State.setBus_halted (s : State) (v : List BusAccess) : (s.setBus v).halted = s.halted := rfl
@[simp] theorem State.setBus_irqLow (s : State) (v : List BusAccess) : (s.setBus v).irqLow = s.irqLow := rfl
@[simp] theorem State.setBus_resetActive (s : State) (v : List BusAccess) : (s.setBus v).resetActive = s.resetActive := rfl
@[simp] theorem State.setBus_mem (s : State) (v : List BusAccess) : (s.setBus v).mem = s.mem := rfl
@[simp] theorem State.setBus_params (s : State) (v : List BusAccess) : (s.setBus v).params = s.params := rfl
@[simp] theorem State.setBus_bus (s : State) (v : List BusAccess) : (s.setBus v).bus = v := rfl
@[simp] theorem State.setBus_cycles (s : State) (v : List BusAccess) : (s.setBus v).cycles = s.cycles := rfl
@[simp] theorem State.setBus_draws (s : State) (v : List BusAccess) : (s.setBus v).draws = s.draws := rfl

@[simp] theorem State.setCycles_a (s : State) (v : Nat) : (s.setCycles v).a = s.a := rfl
@[simp] theorem State.setCycles_b (s : State) (v : Nat) : (s.setCycles v).b = s.b := rfl
@[simp] theorem State.setCycles_x (s : State) (v : Nat) : (s.setCycles v).x = s.x := rfl
@[simp] theorem State.setCycles_sp (s : State) (v : Nat) : (s.setCycles v).sp = s.sp := rfl
@[simp] theorem State.setCycles_pc (s : State) (v : Nat) : (s.setCycles v).pc = s.pc := rfl
@[simp] theorem State.setCycles_cc (s : State) (v : Nat) : (s.setCycles v).cc = s.cc := rfl
@[simp] theorem State.setCycles_waiting (s : State) (v : Nat) : (s.setCycles v).waiting = s.waiting := rfl
@[simp] theorem State.setCycles_nmiPending (s : State) (v : Nat) : (s.setCycles v).nmiPending = s.nmiPending := rfl
@[simp] theorem State.setCycles_irqHoldoff (s : State) (v : Nat) : (s.setCycles v).irqHoldoff = s.irqHoldoff := rfl
@[simp] theorem State.setCycles_halted (s : State) (v : Nat) : (s.setCycles v).halted = s.halted := rfl
@[simp] theorem State.setCycles_irqLow (s : State) (v : Nat) : (s.setCycles v).irqLow = s.irqLow := rfl
@[simp] theorem State.setCycles_resetActive (s : State) (v : Nat) : (s.setCycles v).resetActive = s.resetActive := rfl
@[simp] theorem State.setCycles_mem (s : State) (v : Nat) : (s.setCycles v).mem = s.mem := rfl
@[simp] theorem State.setCycles_params (s : State) (v : Nat) : (s.setCycles v).params = s.params := rfl
@[simp] theorem State.setCycles_bus (s : State) (v : Nat) : (s.setCycles v).bus = s.bus := rfl
@[simp] theorem State.setCycles_cycles (s : State) (v : Nat) : (s.setCycles v).cycles = v := rfl
@[simp] theorem State.setCycles_draws (s : State) (v : Nat) : (s.setCycles v).draws = s.draws := rfl

@[simp] theorem State.setDraws_a (s : State) (v : Nat) : (s.setDraws v).a = s.a := rfl
@[simp] theorem State.setDraws_b (s : State) (v : Nat) : (s.setDraws v).b = s.b := rfl
@[simp] theorem State.setDraws_x (s : State) (v : Nat) : (s.setDraws v).x = s.x := rfl
@[simp] theorem State.setDraws_sp (s : State) (v : Nat) : (s.setDraws v).sp = s.sp := rfl
@[simp] theorem State.setDraws_pc (s : State) (v : Nat) : (s.setDraws v).pc = s.pc := rfl
@[simp] theorem State.setDraws_cc (s : State) (v : Nat) : (s.setDraws v).cc = s.cc := rfl
@[simp] theorem State.setDraws_waiting (s : State) (v : Nat) : (s.setDraws v).waiting = s.waiting := rfl
@[simp] theorem State.setDraws_nmiPending (s : State) (v : Nat) : (s.setDraws v).nmiPending = s.nmiPending := rfl
@[simp] theorem State.setDraws_irqHoldoff (s : State) (v : Nat) : (s.setDraws v).irqHoldoff = s.irqHoldoff := rfl
@[simp] theorem State.setDraws_halted (s : State) (v : Nat) : (s.setDraws v).halted = s.halted := rfl
@[simp] theorem State.setDraws_irqLow (s : State) (v : Nat) : (s.setDraws v).irqLow = s.irqLow := rfl
@[simp] theorem State.setDraws_resetActive (s : State) (v : Nat) : (s.setDraws v).resetActive = s.resetActive := rfl
@[simp] theorem State.setDraws_mem (s : State) (v : Nat) : (s.setDraws v).mem = s.mem := rfl
@[simp] theorem State.setDraws_params (s : State) (v : Nat) : (s.setDraws v).params = s.params := rfl
@[simp] theorem State.setDraws_bus (s : State) (v : Nat) : (s.setDraws v).bus = s.bus := rfl
@[simp] theorem State.setDraws_cycles (s : State) (v : Nat) : (s.setDraws v).cycles = s.cycles := rfl
@[simp] theorem State.setDraws_draws (s : State) (v : Nat) : (s.setDraws v).draws = v := rfl

/-- Two states that agree in every field are equal. -/
@[ext] theorem State.ext_fields {s t : State} (ha : s.a = t.a) (hb : s.b = t.b) (hx : s.x = t.x) (hsp : s.sp = t.sp)
    (hpc : s.pc = t.pc) (hcc : s.cc = t.cc) (hwaiting : s.waiting = t.waiting) (hnmi : s.nmiPending = t.nmiPending)
    (hholdoff : s.irqHoldoff = t.irqHoldoff) (hhalted : s.halted = t.halted) (hirq : s.irqLow = t.irqLow)
    (hreset : s.resetActive = t.resetActive) (hmem : s.mem = t.mem) (hparams : s.params = t.params)
    (hbus : s.bus = t.bus) (hcycles : s.cycles = t.cycles) (hdraws : s.draws = t.draws) : s = t := by
  cases s
  cases t
  simp_all

end Sys2Proof.Machine
end

