-- ==== Sys2Proof/Laws/Ops.lean ====
section
/-! SUPPORT. For each shared operation, what it leaves alone (one simp lemma per field) and what it does. A proof cites
these and does not unfold the operation. -/

namespace Sys2Proof.Machine

/-! ### `peek` and `kindAt` look at memory and at the map only -/

@[simp] theorem State.peek_setA (s : State) (v) (c : Word) : (s.setA v).peek c = s.peek c := rfl
@[simp] theorem State.kindAt_setA (s : State) (v) (c : Word) : (s.setA v).kindAt c = s.kindAt c := rfl
@[simp] theorem State.peek_setB (s : State) (v) (c : Word) : (s.setB v).peek c = s.peek c := rfl
@[simp] theorem State.kindAt_setB (s : State) (v) (c : Word) : (s.setB v).kindAt c = s.kindAt c := rfl
@[simp] theorem State.peek_setX (s : State) (v) (c : Word) : (s.setX v).peek c = s.peek c := rfl
@[simp] theorem State.kindAt_setX (s : State) (v) (c : Word) : (s.setX v).kindAt c = s.kindAt c := rfl
@[simp] theorem State.acc_setX (s : State) (v) (r : Acc) : (s.setX v).acc r = s.acc r := by cases r <;> rfl
@[simp] theorem State.peek_setSp (s : State) (v) (c : Word) : (s.setSp v).peek c = s.peek c := rfl
@[simp] theorem State.kindAt_setSp (s : State) (v) (c : Word) : (s.setSp v).kindAt c = s.kindAt c := rfl
@[simp] theorem State.acc_setSp (s : State) (v) (r : Acc) : (s.setSp v).acc r = s.acc r := by cases r <;> rfl
@[simp] theorem State.peek_setPc (s : State) (v) (c : Word) : (s.setPc v).peek c = s.peek c := rfl
@[simp] theorem State.kindAt_setPc (s : State) (v) (c : Word) : (s.setPc v).kindAt c = s.kindAt c := rfl
@[simp] theorem State.acc_setPc (s : State) (v) (r : Acc) : (s.setPc v).acc r = s.acc r := by cases r <;> rfl
@[simp] theorem State.peek_setCc (s : State) (v) (c : Word) : (s.setCc v).peek c = s.peek c := rfl
@[simp] theorem State.kindAt_setCc (s : State) (v) (c : Word) : (s.setCc v).kindAt c = s.kindAt c := rfl
@[simp] theorem State.acc_setCc (s : State) (v) (r : Acc) : (s.setCc v).acc r = s.acc r := by cases r <;> rfl
@[simp] theorem State.peek_setWaiting (s : State) (v) (c : Word) : (s.setWaiting v).peek c = s.peek c := rfl
@[simp] theorem State.kindAt_setWaiting (s : State) (v) (c : Word) : (s.setWaiting v).kindAt c = s.kindAt c := rfl
@[simp] theorem State.acc_setWaiting (s : State) (v) (r : Acc) : (s.setWaiting v).acc r = s.acc r := by cases r <;> rfl
@[simp] theorem State.peek_setNmiPending (s : State) (v) (c : Word) : (s.setNmiPending v).peek c = s.peek c := rfl
@[simp] theorem State.kindAt_setNmiPending (s : State) (v) (c : Word) : (s.setNmiPending v).kindAt c = s.kindAt c := rfl
@[simp] theorem State.acc_setNmiPending (s : State) (v) (r : Acc) : (s.setNmiPending v).acc r = s.acc r := by cases r <;> rfl
@[simp] theorem State.peek_setIrqHoldoff (s : State) (v) (c : Word) : (s.setIrqHoldoff v).peek c = s.peek c := rfl
@[simp] theorem State.kindAt_setIrqHoldoff (s : State) (v) (c : Word) : (s.setIrqHoldoff v).kindAt c = s.kindAt c := rfl
@[simp] theorem State.acc_setIrqHoldoff (s : State) (v) (r : Acc) : (s.setIrqHoldoff v).acc r = s.acc r := by cases r <;> rfl
@[simp] theorem State.peek_setHalted (s : State) (v) (c : Word) : (s.setHalted v).peek c = s.peek c := rfl
@[simp] theorem State.kindAt_setHalted (s : State) (v) (c : Word) : (s.setHalted v).kindAt c = s.kindAt c := rfl
@[simp] theorem State.acc_setHalted (s : State) (v) (r : Acc) : (s.setHalted v).acc r = s.acc r := by cases r <;> rfl
@[simp] theorem State.peek_setIrqLow (s : State) (v) (c : Word) : (s.setIrqLow v).peek c = s.peek c := rfl
@[simp] theorem State.kindAt_setIrqLow (s : State) (v) (c : Word) : (s.setIrqLow v).kindAt c = s.kindAt c := rfl
@[simp] theorem State.acc_setIrqLow (s : State) (v) (r : Acc) : (s.setIrqLow v).acc r = s.acc r := by cases r <;> rfl
@[simp] theorem State.peek_setResetActive (s : State) (v) (c : Word) : (s.setResetActive v).peek c = s.peek c := rfl
@[simp] theorem State.kindAt_setResetActive (s : State) (v) (c : Word) : (s.setResetActive v).kindAt c = s.kindAt c := rfl
@[simp] theorem State.acc_setResetActive (s : State) (v) (r : Acc) : (s.setResetActive v).acc r = s.acc r := by cases r <;> rfl
@[simp] theorem State.kindAt_setMem (s : State) (v) (c : Word) : (s.setMem v).kindAt c = s.kindAt c := rfl
@[simp] theorem State.acc_setMem (s : State) (v) (r : Acc) : (s.setMem v).acc r = s.acc r := by cases r <;> rfl
@[simp] theorem State.peek_setParams (s : State) (v) (c : Word) : (s.setParams v).peek c = s.peek c := rfl
@[simp] theorem State.acc_setParams (s : State) (v) (r : Acc) : (s.setParams v).acc r = s.acc r := by cases r <;> rfl
@[simp] theorem State.peek_setBus (s : State) (v) (c : Word) : (s.setBus v).peek c = s.peek c := rfl
@[simp] theorem State.kindAt_setBus (s : State) (v) (c : Word) : (s.setBus v).kindAt c = s.kindAt c := rfl
@[simp] theorem State.acc_setBus (s : State) (v) (r : Acc) : (s.setBus v).acc r = s.acc r := by cases r <;> rfl
@[simp] theorem State.peek_setCycles (s : State) (v) (c : Word) : (s.setCycles v).peek c = s.peek c := rfl
@[simp] theorem State.kindAt_setCycles (s : State) (v) (c : Word) : (s.setCycles v).kindAt c = s.kindAt c := rfl
@[simp] theorem State.acc_setCycles (s : State) (v) (r : Acc) : (s.setCycles v).acc r = s.acc r := by cases r <;> rfl
@[simp] theorem State.peek_setDraws (s : State) (v) (c : Word) : (s.setDraws v).peek c = s.peek c := rfl
@[simp] theorem State.kindAt_setDraws (s : State) (v) (c : Word) : (s.setDraws v).kindAt c = s.kindAt c := rfl
@[simp] theorem State.acc_setDraws (s : State) (v) (r : Acc) : (s.setDraws v).acc r = s.acc r := by cases r <;> rfl

@[simp] theorem State.peek_setMem_set (s : State) (a c : Word) (v : Byte) :
    (s.setMem (Memory.set s.mem a.toNat v)).peek c = if c = a then v else s.peek c := by
  simp [State.peek, BitVec.toNat_inj]

/-! ### Accumulators -/

@[simp] theorem State.acc_a (s : State) : s.acc .a = s.a := rfl
@[simp] theorem State.acc_b (s : State) : s.acc .b = s.b := rfl
@[simp] theorem State.setAcc_a (s : State) (v : Byte) : s.setAcc .a v = s.setA v := rfl
@[simp] theorem State.setAcc_b (s : State) (v : Byte) : s.setAcc .b v = s.setB v := rfl

/-! ### What each operation leaves alone -/

@[simp] theorem logAccess_a (y : BusAccess) (s : State) : (s.logAccess y).a = s.a := rfl
@[simp] theorem logAccess_b (y : BusAccess) (s : State) : (s.logAccess y).b = s.b := rfl
@[simp] theorem logAccess_x (y : BusAccess) (s : State) : (s.logAccess y).x = s.x := rfl
@[simp] theorem logAccess_sp (y : BusAccess) (s : State) : (s.logAccess y).sp = s.sp := rfl
@[simp] theorem logAccess_pc (y : BusAccess) (s : State) : (s.logAccess y).pc = s.pc := rfl
@[simp] theorem logAccess_cc (y : BusAccess) (s : State) : (s.logAccess y).cc = s.cc := rfl
@[simp] theorem logAccess_waiting (y : BusAccess) (s : State) : (s.logAccess y).waiting = s.waiting := rfl
@[simp] theorem logAccess_nmiPending (y : BusAccess) (s : State) : (s.logAccess y).nmiPending = s.nmiPending := rfl
@[simp] theorem logAccess_irqHoldoff (y : BusAccess) (s : State) : (s.logAccess y).irqHoldoff = s.irqHoldoff := rfl
@[simp] theorem logAccess_halted (y : BusAccess) (s : State) : (s.logAccess y).halted = s.halted := rfl
@[simp] theorem logAccess_irqLow (y : BusAccess) (s : State) : (s.logAccess y).irqLow = s.irqLow := rfl
@[simp] theorem logAccess_resetActive (y : BusAccess) (s : State) : (s.logAccess y).resetActive = s.resetActive := rfl
@[simp] theorem logAccess_mem (y : BusAccess) (s : State) : (s.logAccess y).mem = s.mem := rfl
@[simp] theorem logAccess_params (y : BusAccess) (s : State) : (s.logAccess y).params = s.params := rfl
@[simp] theorem logAccess_cycles (y : BusAccess) (s : State) : (s.logAccess y).cycles = s.cycles := rfl
@[simp] theorem logAccess_draws (y : BusAccess) (s : State) : (s.logAccess y).draws = s.draws := rfl
@[simp] theorem logAccess_peek (y : BusAccess) (s : State) (c : Word) : (s.logAccess y).peek c = s.peek c := by simp [State.peek]
@[simp] theorem logAccess_kindAt (y : BusAccess) (s : State) (c : Word) : (s.logAccess y).kindAt c = s.kindAt c := by simp [State.kindAt]
@[simp] theorem logAccess_acc (y : BusAccess) (s : State) (r : Acc) : (s.logAccess y).acc r = s.acc r := by cases r <;> simp

@[simp] theorem read8_a (a : Word) (s : State) : ((read8 a s).2).a = s.a := by unfold read8; split <;> rfl
@[simp] theorem read8_b (a : Word) (s : State) : ((read8 a s).2).b = s.b := by unfold read8; split <;> rfl
@[simp] theorem read8_x (a : Word) (s : State) : ((read8 a s).2).x = s.x := by unfold read8; split <;> rfl
@[simp] theorem read8_sp (a : Word) (s : State) : ((read8 a s).2).sp = s.sp := by unfold read8; split <;> rfl
@[simp] theorem read8_pc (a : Word) (s : State) : ((read8 a s).2).pc = s.pc := by unfold read8; split <;> rfl
@[simp] theorem read8_cc (a : Word) (s : State) : ((read8 a s).2).cc = s.cc := by unfold read8; split <;> rfl
@[simp] theorem read8_waiting (a : Word) (s : State) : ((read8 a s).2).waiting = s.waiting := by unfold read8; split <;> rfl
@[simp] theorem read8_nmiPending (a : Word) (s : State) : ((read8 a s).2).nmiPending = s.nmiPending := by unfold read8; split <;> rfl
@[simp] theorem read8_irqHoldoff (a : Word) (s : State) : ((read8 a s).2).irqHoldoff = s.irqHoldoff := by unfold read8; split <;> rfl
@[simp] theorem read8_halted (a : Word) (s : State) : ((read8 a s).2).halted = s.halted := by unfold read8; split <;> rfl
@[simp] theorem read8_irqLow (a : Word) (s : State) : ((read8 a s).2).irqLow = s.irqLow := by unfold read8; split <;> rfl
@[simp] theorem read8_resetActive (a : Word) (s : State) : ((read8 a s).2).resetActive = s.resetActive := by unfold read8; split <;> rfl
@[simp] theorem read8_mem (a : Word) (s : State) : ((read8 a s).2).mem = s.mem := by unfold read8; split <;> rfl
@[simp] theorem read8_params (a : Word) (s : State) : ((read8 a s).2).params = s.params := by unfold read8; split <;> rfl
@[simp] theorem read8_cycles (a : Word) (s : State) : ((read8 a s).2).cycles = s.cycles := by unfold read8; split <;> rfl
@[simp] theorem read8_peek (a : Word) (s : State) (c : Word) : ((read8 a s).2).peek c = s.peek c := by simp [State.peek]
@[simp] theorem read8_kindAt (a : Word) (s : State) (c : Word) : ((read8 a s).2).kindAt c = s.kindAt c := by simp [State.kindAt]
@[simp] theorem read8_acc (a : Word) (s : State) (r : Acc) : ((read8 a s).2).acc r = s.acc r := by cases r <;> simp

@[simp] theorem write8_a (a : Word) (v : Byte) (s : State) : (write8 a v s).a = s.a := by unfold write8; split <;> rfl
@[simp] theorem write8_b (a : Word) (v : Byte) (s : State) : (write8 a v s).b = s.b := by unfold write8; split <;> rfl
@[simp] theorem write8_x (a : Word) (v : Byte) (s : State) : (write8 a v s).x = s.x := by unfold write8; split <;> rfl
@[simp] theorem write8_sp (a : Word) (v : Byte) (s : State) : (write8 a v s).sp = s.sp := by unfold write8; split <;> rfl
@[simp] theorem write8_pc (a : Word) (v : Byte) (s : State) : (write8 a v s).pc = s.pc := by unfold write8; split <;> rfl
@[simp] theorem write8_cc (a : Word) (v : Byte) (s : State) : (write8 a v s).cc = s.cc := by unfold write8; split <;> rfl
@[simp] theorem write8_waiting (a : Word) (v : Byte) (s : State) : (write8 a v s).waiting = s.waiting := by unfold write8; split <;> rfl
@[simp] theorem write8_nmiPending (a : Word) (v : Byte) (s : State) : (write8 a v s).nmiPending = s.nmiPending := by unfold write8; split <;> rfl
@[simp] theorem write8_irqHoldoff (a : Word) (v : Byte) (s : State) : (write8 a v s).irqHoldoff = s.irqHoldoff := by unfold write8; split <;> rfl
@[simp] theorem write8_halted (a : Word) (v : Byte) (s : State) : (write8 a v s).halted = s.halted := by unfold write8; split <;> rfl
@[simp] theorem write8_irqLow (a : Word) (v : Byte) (s : State) : (write8 a v s).irqLow = s.irqLow := by unfold write8; split <;> rfl
@[simp] theorem write8_resetActive (a : Word) (v : Byte) (s : State) : (write8 a v s).resetActive = s.resetActive := by unfold write8; split <;> rfl
@[simp] theorem write8_params (a : Word) (v : Byte) (s : State) : (write8 a v s).params = s.params := by unfold write8; split <;> rfl
@[simp] theorem write8_cycles (a : Word) (v : Byte) (s : State) : (write8 a v s).cycles = s.cycles := by unfold write8; split <;> rfl
@[simp] theorem write8_draws (a : Word) (v : Byte) (s : State) : (write8 a v s).draws = s.draws := by unfold write8; split <;> rfl
@[simp] theorem write8_kindAt (a : Word) (v : Byte) (s : State) (c : Word) : (write8 a v s).kindAt c = s.kindAt c := by simp [State.kindAt]
@[simp] theorem write8_acc (a : Word) (v : Byte) (s : State) (r : Acc) : (write8 a v s).acc r = s.acc r := by cases r <;> simp

@[simp] theorem read16_a (a : Word) (s : State) : ((read16 a s).2).a = s.a := by simp [read16]
@[simp] theorem read16_b (a : Word) (s : State) : ((read16 a s).2).b = s.b := by simp [read16]
@[simp] theorem read16_x (a : Word) (s : State) : ((read16 a s).2).x = s.x := by simp [read16]
@[simp] theorem read16_sp (a : Word) (s : State) : ((read16 a s).2).sp = s.sp := by simp [read16]
@[simp] theorem read16_pc (a : Word) (s : State) : ((read16 a s).2).pc = s.pc := by simp [read16]
@[simp] theorem read16_cc (a : Word) (s : State) : ((read16 a s).2).cc = s.cc := by simp [read16]
@[simp] theorem read16_waiting (a : Word) (s : State) : ((read16 a s).2).waiting = s.waiting := by simp [read16]
@[simp] theorem read16_nmiPending (a : Word) (s : State) : ((read16 a s).2).nmiPending = s.nmiPending := by simp [read16]
@[simp] theorem read16_irqHoldoff (a : Word) (s : State) : ((read16 a s).2).irqHoldoff = s.irqHoldoff := by simp [read16]
@[simp] theorem read16_halted (a : Word) (s : State) : ((read16 a s).2).halted = s.halted := by simp [read16]
@[simp] theorem read16_irqLow (a : Word) (s : State) : ((read16 a s).2).irqLow = s.irqLow := by simp [read16]
@[simp] theorem read16_resetActive (a : Word) (s : State) : ((read16 a s).2).resetActive = s.resetActive := by simp [read16]
@[simp] theorem read16_mem (a : Word) (s : State) : ((read16 a s).2).mem = s.mem := by simp [read16]
@[simp] theorem read16_params (a : Word) (s : State) : ((read16 a s).2).params = s.params := by simp [read16]
@[simp] theorem read16_cycles (a : Word) (s : State) : ((read16 a s).2).cycles = s.cycles := by simp [read16]
@[simp] theorem read16_peek (a : Word) (s : State) (c : Word) : ((read16 a s).2).peek c = s.peek c := by simp [State.peek]
@[simp] theorem read16_kindAt (a : Word) (s : State) (c : Word) : ((read16 a s).2).kindAt c = s.kindAt c := by simp [State.kindAt]
@[simp] theorem read16_acc (a : Word) (s : State) (r : Acc) : ((read16 a s).2).acc r = s.acc r := by cases r <;> simp

@[simp] theorem write16_a (a : Word) (v : Word) (s : State) : (write16 a v s).a = s.a := by simp [write16]
@[simp] theorem write16_b (a : Word) (v : Word) (s : State) : (write16 a v s).b = s.b := by simp [write16]
@[simp] theorem write16_x (a : Word) (v : Word) (s : State) : (write16 a v s).x = s.x := by simp [write16]
@[simp] theorem write16_sp (a : Word) (v : Word) (s : State) : (write16 a v s).sp = s.sp := by simp [write16]
@[simp] theorem write16_pc (a : Word) (v : Word) (s : State) : (write16 a v s).pc = s.pc := by simp [write16]
@[simp] theorem write16_cc (a : Word) (v : Word) (s : State) : (write16 a v s).cc = s.cc := by simp [write16]
@[simp] theorem write16_waiting (a : Word) (v : Word) (s : State) : (write16 a v s).waiting = s.waiting := by simp [write16]
@[simp] theorem write16_nmiPending (a : Word) (v : Word) (s : State) : (write16 a v s).nmiPending = s.nmiPending := by simp [write16]
@[simp] theorem write16_irqHoldoff (a : Word) (v : Word) (s : State) : (write16 a v s).irqHoldoff = s.irqHoldoff := by simp [write16]
@[simp] theorem write16_halted (a : Word) (v : Word) (s : State) : (write16 a v s).halted = s.halted := by simp [write16]
@[simp] theorem write16_irqLow (a : Word) (v : Word) (s : State) : (write16 a v s).irqLow = s.irqLow := by simp [write16]
@[simp] theorem write16_resetActive (a : Word) (v : Word) (s : State) : (write16 a v s).resetActive = s.resetActive := by simp [write16]
@[simp] theorem write16_params (a : Word) (v : Word) (s : State) : (write16 a v s).params = s.params := by simp [write16]
@[simp] theorem write16_cycles (a : Word) (v : Word) (s : State) : (write16 a v s).cycles = s.cycles := by simp [write16]
@[simp] theorem write16_draws (a : Word) (v : Word) (s : State) : (write16 a v s).draws = s.draws := by simp [write16]
@[simp] theorem write16_kindAt (a : Word) (v : Word) (s : State) (c : Word) : (write16 a v s).kindAt c = s.kindAt c := by simp [State.kindAt]
@[simp] theorem write16_acc (a : Word) (v : Word) (s : State) (r : Acc) : (write16 a v s).acc r = s.acc r := by cases r <;> simp

@[simp] theorem push8_a (v : Byte) (s : State) : (push8 v s).a = s.a := by simp [push8]
@[simp] theorem push8_b (v : Byte) (s : State) : (push8 v s).b = s.b := by simp [push8]
@[simp] theorem push8_x (v : Byte) (s : State) : (push8 v s).x = s.x := by simp [push8]
@[simp] theorem push8_pc (v : Byte) (s : State) : (push8 v s).pc = s.pc := by simp [push8]
@[simp] theorem push8_cc (v : Byte) (s : State) : (push8 v s).cc = s.cc := by simp [push8]
@[simp] theorem push8_waiting (v : Byte) (s : State) : (push8 v s).waiting = s.waiting := by simp [push8]
@[simp] theorem push8_nmiPending (v : Byte) (s : State) : (push8 v s).nmiPending = s.nmiPending := by simp [push8]
@[simp] theorem push8_irqHoldoff (v : Byte) (s : State) : (push8 v s).irqHoldoff = s.irqHoldoff := by simp [push8]
@[simp] theorem push8_halted (v : Byte) (s : State) : (push8 v s).halted = s.halted := by simp [push8]
@[simp] theorem push8_irqLow (v : Byte) (s : State) : (push8 v s).irqLow = s.irqLow := by simp [push8]
@[simp] theorem push8_resetActive (v : Byte) (s : State) : (push8 v s).resetActive = s.resetActive := by simp [push8]
@[simp] theorem push8_params (v : Byte) (s : State) : (push8 v s).params = s.params := by simp [push8]
@[simp] theorem push8_cycles (v : Byte) (s : State) : (push8 v s).cycles = s.cycles := by simp [push8]
@[simp] theorem push8_draws (v : Byte) (s : State) : (push8 v s).draws = s.draws := by simp [push8]
@[simp] theorem push8_kindAt (v : Byte) (s : State) (c : Word) : (push8 v s).kindAt c = s.kindAt c := by simp [State.kindAt]
@[simp] theorem push8_acc (v : Byte) (s : State) (r : Acc) : (push8 v s).acc r = s.acc r := by cases r <;> simp

@[simp] theorem push16_a (v : Word) (s : State) : (push16 v s).a = s.a := by simp [push16]
@[simp] theorem push16_b (v : Word) (s : State) : (push16 v s).b = s.b := by simp [push16]
@[simp] theorem push16_x (v : Word) (s : State) : (push16 v s).x = s.x := by simp [push16]
@[simp] theorem push16_pc (v : Word) (s : State) : (push16 v s).pc = s.pc := by simp [push16]
@[simp] theorem push16_cc (v : Word) (s : State) : (push16 v s).cc = s.cc := by simp [push16]
@[simp] theorem push16_waiting (v : Word) (s : State) : (push16 v s).waiting = s.waiting := by simp [push16]
@[simp] theorem push16_nmiPending (v : Word) (s : State) : (push16 v s).nmiPending = s.nmiPending := by simp [push16]
@[simp] theorem push16_irqHoldoff (v : Word) (s : State) : (push16 v s).irqHoldoff = s.irqHoldoff := by simp [push16]
@[simp] theorem push16_halted (v : Word) (s : State) : (push16 v s).halted = s.halted := by simp [push16]
@[simp] theorem push16_irqLow (v : Word) (s : State) : (push16 v s).irqLow = s.irqLow := by simp [push16]
@[simp] theorem push16_resetActive (v : Word) (s : State) : (push16 v s).resetActive = s.resetActive := by simp [push16]
@[simp] theorem push16_params (v : Word) (s : State) : (push16 v s).params = s.params := by simp [push16]
@[simp] theorem push16_cycles (v : Word) (s : State) : (push16 v s).cycles = s.cycles := by simp [push16]
@[simp] theorem push16_draws (v : Word) (s : State) : (push16 v s).draws = s.draws := by simp [push16]
@[simp] theorem push16_kindAt (v : Word) (s : State) (c : Word) : (push16 v s).kindAt c = s.kindAt c := by simp [State.kindAt]
@[simp] theorem push16_acc (v : Word) (s : State) (r : Acc) : (push16 v s).acc r = s.acc r := by cases r <;> simp

@[simp] theorem pull8_a (s : State) : ((pull8 s).2).a = s.a := by simp [pull8]
@[simp] theorem pull8_b (s : State) : ((pull8 s).2).b = s.b := by simp [pull8]
@[simp] theorem pull8_x (s : State) : ((pull8 s).2).x = s.x := by simp [pull8]
@[simp] theorem pull8_pc (s : State) : ((pull8 s).2).pc = s.pc := by simp [pull8]
@[simp] theorem pull8_cc (s : State) : ((pull8 s).2).cc = s.cc := by simp [pull8]
@[simp] theorem pull8_waiting (s : State) : ((pull8 s).2).waiting = s.waiting := by simp [pull8]
@[simp] theorem pull8_nmiPending (s : State) : ((pull8 s).2).nmiPending = s.nmiPending := by simp [pull8]
@[simp] theorem pull8_irqHoldoff (s : State) : ((pull8 s).2).irqHoldoff = s.irqHoldoff := by simp [pull8]
@[simp] theorem pull8_halted (s : State) : ((pull8 s).2).halted = s.halted := by simp [pull8]
@[simp] theorem pull8_irqLow (s : State) : ((pull8 s).2).irqLow = s.irqLow := by simp [pull8]
@[simp] theorem pull8_resetActive (s : State) : ((pull8 s).2).resetActive = s.resetActive := by simp [pull8]
@[simp] theorem pull8_mem (s : State) : ((pull8 s).2).mem = s.mem := by simp [pull8]
@[simp] theorem pull8_params (s : State) : ((pull8 s).2).params = s.params := by simp [pull8]
@[simp] theorem pull8_cycles (s : State) : ((pull8 s).2).cycles = s.cycles := by simp [pull8]
@[simp] theorem pull8_peek (s : State) (c : Word) : ((pull8 s).2).peek c = s.peek c := by simp [State.peek]
@[simp] theorem pull8_kindAt (s : State) (c : Word) : ((pull8 s).2).kindAt c = s.kindAt c := by simp [State.kindAt]
@[simp] theorem pull8_acc (s : State) (r : Acc) : ((pull8 s).2).acc r = s.acc r := by cases r <;> simp

@[simp] theorem pull16_a (s : State) : ((pull16 s).2).a = s.a := by simp [pull16]
@[simp] theorem pull16_b (s : State) : ((pull16 s).2).b = s.b := by simp [pull16]
@[simp] theorem pull16_x (s : State) : ((pull16 s).2).x = s.x := by simp [pull16]
@[simp] theorem pull16_pc (s : State) : ((pull16 s).2).pc = s.pc := by simp [pull16]
@[simp] theorem pull16_cc (s : State) : ((pull16 s).2).cc = s.cc := by simp [pull16]
@[simp] theorem pull16_waiting (s : State) : ((pull16 s).2).waiting = s.waiting := by simp [pull16]
@[simp] theorem pull16_nmiPending (s : State) : ((pull16 s).2).nmiPending = s.nmiPending := by simp [pull16]
@[simp] theorem pull16_irqHoldoff (s : State) : ((pull16 s).2).irqHoldoff = s.irqHoldoff := by simp [pull16]
@[simp] theorem pull16_halted (s : State) : ((pull16 s).2).halted = s.halted := by simp [pull16]
@[simp] theorem pull16_irqLow (s : State) : ((pull16 s).2).irqLow = s.irqLow := by simp [pull16]
@[simp] theorem pull16_resetActive (s : State) : ((pull16 s).2).resetActive = s.resetActive := by simp [pull16]
@[simp] theorem pull16_mem (s : State) : ((pull16 s).2).mem = s.mem := by simp [pull16]
@[simp] theorem pull16_params (s : State) : ((pull16 s).2).params = s.params := by simp [pull16]
@[simp] theorem pull16_cycles (s : State) : ((pull16 s).2).cycles = s.cycles := by simp [pull16]
@[simp] theorem pull16_peek (s : State) (c : Word) : ((pull16 s).2).peek c = s.peek c := by simp [State.peek]
@[simp] theorem pull16_kindAt (s : State) (c : Word) : ((pull16 s).2).kindAt c = s.kindAt c := by simp [State.kindAt]
@[simp] theorem pull16_acc (s : State) (r : Acc) : ((pull16 s).2).acc r = s.acc r := by cases r <;> simp

@[simp] theorem stackAll_a (s : State) : (stackAll s).a = s.a := by simp [stackAll]
@[simp] theorem stackAll_b (s : State) : (stackAll s).b = s.b := by simp [stackAll]
@[simp] theorem stackAll_x (s : State) : (stackAll s).x = s.x := by simp [stackAll]
@[simp] theorem stackAll_pc (s : State) : (stackAll s).pc = s.pc := by simp [stackAll]
@[simp] theorem stackAll_cc (s : State) : (stackAll s).cc = s.cc := by simp [stackAll]
@[simp] theorem stackAll_waiting (s : State) : (stackAll s).waiting = s.waiting := by simp [stackAll]
@[simp] theorem stackAll_nmiPending (s : State) : (stackAll s).nmiPending = s.nmiPending := by simp [stackAll]
@[simp] theorem stackAll_irqHoldoff (s : State) : (stackAll s).irqHoldoff = s.irqHoldoff := by simp [stackAll]
@[simp] theorem stackAll_halted (s : State) : (stackAll s).halted = s.halted := by simp [stackAll]
@[simp] theorem stackAll_irqLow (s : State) : (stackAll s).irqLow = s.irqLow := by simp [stackAll]
@[simp] theorem stackAll_resetActive (s : State) : (stackAll s).resetActive = s.resetActive := by simp [stackAll]
@[simp] theorem stackAll_params (s : State) : (stackAll s).params = s.params := by simp [stackAll]
@[simp] theorem stackAll_cycles (s : State) : (stackAll s).cycles = s.cycles := by simp [stackAll]
@[simp] theorem stackAll_draws (s : State) : (stackAll s).draws = s.draws := by simp [stackAll]
@[simp] theorem stackAll_kindAt (s : State) (c : Word) : (stackAll s).kindAt c = s.kindAt c := by simp [State.kindAt]
@[simp] theorem stackAll_acc (s : State) (r : Acc) : (stackAll s).acc r = s.acc r := by cases r <;> simp

@[simp] theorem readSrc8_a (m : Src8) (s : State) : ((readSrc8 m s).2).a = s.a := by cases m <;> simp [readSrc8]
@[simp] theorem readSrc8_b (m : Src8) (s : State) : ((readSrc8 m s).2).b = s.b := by cases m <;> simp [readSrc8]
@[simp] theorem readSrc8_x (m : Src8) (s : State) : ((readSrc8 m s).2).x = s.x := by cases m <;> simp [readSrc8]
@[simp] theorem readSrc8_sp (m : Src8) (s : State) : ((readSrc8 m s).2).sp = s.sp := by cases m <;> simp [readSrc8]
@[simp] theorem readSrc8_pc (m : Src8) (s : State) : ((readSrc8 m s).2).pc = s.pc := by cases m <;> simp [readSrc8]
@[simp] theorem readSrc8_cc (m : Src8) (s : State) : ((readSrc8 m s).2).cc = s.cc := by cases m <;> simp [readSrc8]
@[simp] theorem readSrc8_waiting (m : Src8) (s : State) : ((readSrc8 m s).2).waiting = s.waiting := by cases m <;> simp [readSrc8]
@[simp] theorem readSrc8_nmiPending (m : Src8) (s : State) : ((readSrc8 m s).2).nmiPending = s.nmiPending := by cases m <;> simp [readSrc8]
@[simp] theorem readSrc8_irqHoldoff (m : Src8) (s : State) : ((readSrc8 m s).2).irqHoldoff = s.irqHoldoff := by cases m <;> simp [readSrc8]
@[simp] theorem readSrc8_halted (m : Src8) (s : State) : ((readSrc8 m s).2).halted = s.halted := by cases m <;> simp [readSrc8]
@[simp] theorem readSrc8_irqLow (m : Src8) (s : State) : ((readSrc8 m s).2).irqLow = s.irqLow := by cases m <;> simp [readSrc8]
@[simp] theorem readSrc8_resetActive (m : Src8) (s : State) : ((readSrc8 m s).2).resetActive = s.resetActive := by cases m <;> simp [readSrc8]
@[simp] theorem readSrc8_mem (m : Src8) (s : State) : ((readSrc8 m s).2).mem = s.mem := by cases m <;> simp [readSrc8]
@[simp] theorem readSrc8_params (m : Src8) (s : State) : ((readSrc8 m s).2).params = s.params := by cases m <;> simp [readSrc8]
@[simp] theorem readSrc8_cycles (m : Src8) (s : State) : ((readSrc8 m s).2).cycles = s.cycles := by cases m <;> simp [readSrc8]
@[simp] theorem readSrc8_peek (m : Src8) (s : State) (c : Word) : ((readSrc8 m s).2).peek c = s.peek c := by simp [State.peek]
@[simp] theorem readSrc8_kindAt (m : Src8) (s : State) (c : Word) : ((readSrc8 m s).2).kindAt c = s.kindAt c := by simp [State.kindAt]
@[simp] theorem readSrc8_acc (m : Src8) (s : State) (r : Acc) : ((readSrc8 m s).2).acc r = s.acc r := by cases r <;> simp

@[simp] theorem readSrc16_a (m : Src16) (s : State) : ((readSrc16 m s).2).a = s.a := by cases m <;> simp [readSrc16]
@[simp] theorem readSrc16_b (m : Src16) (s : State) : ((readSrc16 m s).2).b = s.b := by cases m <;> simp [readSrc16]
@[simp] theorem readSrc16_x (m : Src16) (s : State) : ((readSrc16 m s).2).x = s.x := by cases m <;> simp [readSrc16]
@[simp] theorem readSrc16_sp (m : Src16) (s : State) : ((readSrc16 m s).2).sp = s.sp := by cases m <;> simp [readSrc16]
@[simp] theorem readSrc16_pc (m : Src16) (s : State) : ((readSrc16 m s).2).pc = s.pc := by cases m <;> simp [readSrc16]
@[simp] theorem readSrc16_cc (m : Src16) (s : State) : ((readSrc16 m s).2).cc = s.cc := by cases m <;> simp [readSrc16]
@[simp] theorem readSrc16_waiting (m : Src16) (s : State) : ((readSrc16 m s).2).waiting = s.waiting := by cases m <;> simp [readSrc16]
@[simp] theorem readSrc16_nmiPending (m : Src16) (s : State) : ((readSrc16 m s).2).nmiPending = s.nmiPending := by cases m <;> simp [readSrc16]
@[simp] theorem readSrc16_irqHoldoff (m : Src16) (s : State) : ((readSrc16 m s).2).irqHoldoff = s.irqHoldoff := by cases m <;> simp [readSrc16]
@[simp] theorem readSrc16_halted (m : Src16) (s : State) : ((readSrc16 m s).2).halted = s.halted := by cases m <;> simp [readSrc16]
@[simp] theorem readSrc16_irqLow (m : Src16) (s : State) : ((readSrc16 m s).2).irqLow = s.irqLow := by cases m <;> simp [readSrc16]
@[simp] theorem readSrc16_resetActive (m : Src16) (s : State) : ((readSrc16 m s).2).resetActive = s.resetActive := by cases m <;> simp [readSrc16]
@[simp] theorem readSrc16_mem (m : Src16) (s : State) : ((readSrc16 m s).2).mem = s.mem := by cases m <;> simp [readSrc16]
@[simp] theorem readSrc16_params (m : Src16) (s : State) : ((readSrc16 m s).2).params = s.params := by cases m <;> simp [readSrc16]
@[simp] theorem readSrc16_cycles (m : Src16) (s : State) : ((readSrc16 m s).2).cycles = s.cycles := by cases m <;> simp [readSrc16]
@[simp] theorem readSrc16_peek (m : Src16) (s : State) (c : Word) : ((readSrc16 m s).2).peek c = s.peek c := by simp [State.peek]
@[simp] theorem readSrc16_kindAt (m : Src16) (s : State) (c : Word) : ((readSrc16 m s).2).kindAt c = s.kindAt c := by simp [State.kindAt]
@[simp] theorem readSrc16_acc (m : Src16) (s : State) (r : Acc) : ((readSrc16 m s).2).acc r = s.acc r := by cases r <;> simp

/-! ### What each operation does -/

/-- RAM and ROM answer with the byte held. -/
theorem read8_held {a : Word} {s : State} (h : s.kindAt a = .ram ∨ s.kindAt a = .rom) : (read8 a s).1 = s.peek a := by
  unfold read8
  rcases h with h | h <;> simp [h]

/-- Elsewhere the answer is the next free value. -/
theorem read8_free {a : Word} {s : State} (h : s.kindAt a = .device ∨ s.kindAt a = .empty) :
    (read8 a s).1 = Config.freeByte s.draws := by
  unfold read8
  rcases h with h | h <;> simp [h]

/-- A read makes one access and records what it read. -/
@[simp] theorem read8_bus (a : Word) (s : State) : (read8 a s).2.bus = s.bus ++ [.read a (read8 a s).1] := by
  unfold read8
  split <;> rfl

/-- A write makes one access. -/
@[simp] theorem write8_bus (a : Word) (v : Byte) (s : State) : (write8 a v s).bus = s.bus ++ [.write a v] := by
  unfold write8
  split <;> rfl

/-- A write changes the byte at its address where that is RAM, and nothing else. -/
@[simp] theorem write8_peek (a : Word) (v : Byte) (s : State) (c : Word) :
    (write8 a v s).peek c = if c = a ∧ s.kindAt a = .ram then v else s.peek c := by
  unfold write8
  split
  · next h =>
    simp only [State.logAccess, State.peek_setBus, State.peek_setMem_set, h, and_true]
  all_goals next h => simp [State.logAccess, h]

/-- A write keeps the canonical form of memory. -/
theorem write8_wf {a : Word} {v : Byte} {s : State} (h : Memory.wf s.mem = true) :
    Memory.wf (write8 a v s).mem = true := by
  unfold write8
  split
  · exact Memory.wf_set v h a.isLt
  all_goals exact h

@[simp] theorem push8_sp (v : Byte) (s : State) : (push8 v s).sp = s.sp - 1 := rfl

@[simp] theorem push8_bus (v : Byte) (s : State) : (push8 v s).bus = s.bus ++ [.write s.sp v] := by
  simp [push8]

@[simp] theorem push8_peek (v : Byte) (s : State) (c : Word) :
    (push8 v s).peek c = if c = s.sp ∧ s.kindAt s.sp = .ram then v else s.peek c := by
  simp [push8]

theorem push8_wf {v : Byte} {s : State} (h : Memory.wf s.mem = true) : Memory.wf (push8 v s).mem = true := by
  simpa [push8] using write8_wf h

@[simp] theorem push16_sp (v : Word) (s : State) : (push16 v s).sp = s.sp - 1 - 1 := rfl

theorem push16_wf {v : Word} {s : State} (h : Memory.wf s.mem = true) : Memory.wf (push16 v s).mem = true :=
  push8_wf (push8_wf h)

@[simp] theorem pull8_sp (s : State) : (pull8 s).2.sp = s.sp + 1 := by simp [pull8]

@[simp] theorem pull8_bus (s : State) : (pull8 s).2.bus = s.bus ++ [.read (s.sp + 1) (pull8 s).1] := by
  simp [pull8]

/-- A pull from RAM or ROM gives the byte held just above SP. -/
theorem pull8_held {s : State} (h : s.kindAt (s.sp + 1) = .ram ∨ s.kindAt (s.sp + 1) = .rom) :
    (pull8 s).1 = s.peek (s.sp + 1) := by
  simpa [pull8] using read8_held (a := s.sp + 1) (s := s.setSp (s.sp + 1)) h

@[simp] theorem pull16_sp (s : State) : (pull16 s).2.sp = s.sp + 1 + 1 := by simp [pull16]

theorem write16_wf {a v : Word} {s : State} (h : Memory.wf s.mem = true) : Memory.wf (write16 a v s).mem = true :=
  write8_wf (write8_wf h)

/-- Seven bytes are stacked. -/
@[simp] theorem stackAll_sp (s : State) : (stackAll s).sp = s.sp - 7 := by
  simp only [stackAll, push8_sp, push16_sp]
  bv_omega

theorem stackAll_wf {s : State} (h : Memory.wf s.mem = true) : Memory.wf (stackAll s).mem = true :=
  push8_wf (push8_wf (push8_wf (push16_wf (push16_wf h))))

/-! ### What a read depends on -/

/-- The value read depends on memory, the map and the draws alone. -/
theorem read8_congr {s t : State} (a : Word) (hm : s.mem = t.mem) (hp : s.params = t.params) (hd : s.draws = t.draws) :
    (read8 a s).1 = (read8 a t).1 ∧ (read8 a s).2.draws = (read8 a t).2.draws := by
  have hk : s.kindAt a = t.kindAt a := by simp [State.kindAt, hp]
  have hv : s.peek a = t.peek a := by simp [State.peek, hm]
  unfold read8
  rw [hk]
  cases t.kindAt a <;> simp [hv, hd, State.logAccess]

/-- A read as one record update. -/
theorem read8_eq (a : Word) (s : State) :
    (read8 a s).2 = { s with bus := s.bus ++ [.read a (read8 a s).1], draws := (read8 a s).2.draws } := by
  ext1 <;> simp

/-- A write as one record update. -/
theorem write8_eq (a : Word) (v : Byte) (s : State) :
    write8 a v s = { s with mem := (write8 a v s).mem, bus := s.bus ++ [.write a v] } := by
  ext1 <;> simp

/-- The bits of a concatenation. -/
theorem wordOf_getLsbD (h l : Byte) (i : Nat) :
    (wordOf h l).getLsbD i = if i < 8 then l.getLsbD i else h.getLsbD (i - 8) := by
  rw [wordOf, BitVec.getLsbD_append]

@[simp] theorem hi8_wordOf (h l : Byte) : hi8 (wordOf h l) = h := by
  apply BitVec.eq_of_getLsbD_eq
  intro i hi
  simp [hi8, wordOf_getLsbD, hi]

@[simp] theorem lo8_wordOf (h l : Byte) : lo8 (wordOf h l) = l := by
  apply BitVec.eq_of_getLsbD_eq
  intro i hi
  simp [lo8, wordOf_getLsbD, hi]

/-- A word is the concatenation of its halves. -/
@[simp] theorem wordOf_hi8_lo8 (v : Word) : wordOf (hi8 v) (lo8 v) = v := by
  apply BitVec.eq_of_getLsbD_eq
  intro i hi
  rw [wordOf_getLsbD]
  split
  · simp [lo8, *]
  · next h => simp [hi8, show i - 8 < 8 by omega, show 8 + (i - 8) = i by omega]

/-- The value of a 16-bit read depends on memory, the map and the draws alone. -/
theorem read16_congr {s t : State} (a : Word) (hm : s.mem = t.mem) (hp : s.params = t.params) (hd : s.draws = t.draws) :
    (read16 a s).1 = (read16 a t).1 ∧ (read16 a s).2.draws = (read16 a t).2.draws := by
  obtain ⟨h1, h2⟩ := read8_congr a hm hp hd
  obtain ⟨h3, h4⟩ := read8_congr (s := (read8 a s).2) (t := (read8 a t).2) (a + 1) (by simpa using hm)
    (by simpa using hp) h2
  exact ⟨by simp only [read16, h1, h3], by simp only [read16, h4]⟩

/-- A 16-bit read makes two accesses, the high byte first. -/
theorem read16_bus (a : Word) (s : State) :
    (read16 a s).2.bus = s.bus ++ [.read a (hi8 (read16 a s).1), .read (a + 1) (lo8 (read16 a s).1)] := by
  simp [read16]

/-- A 16-bit read as one record update. -/
theorem read16_eq (a : Word) (s : State) :
    (read16 a s).2 = { s with
      bus := s.bus ++ [.read a (hi8 (read16 a s).1), .read (a + 1) (lo8 (read16 a s).1)],
      draws := (read16 a s).2.draws } := by
  ext1 <;> simp [read16_bus]

/-- RAM and ROM answer a 16-bit read with the bytes held, the high byte first. -/
theorem read16_held {a : Word} {s : State} (h : s.kindAt a = .ram ∨ s.kindAt a = .rom)
    (h' : s.kindAt (a + 1) = .ram ∨ s.kindAt (a + 1) = .rom) :
    (read16 a s).1 = wordOf (s.peek a) (s.peek (a + 1)) := by
  have := read8_held (a := a + 1) (s := (read8 a s).2) (by simpa using h')
  simp only [read16, read8_held h, this, read8_peek]

/-- A pull as one record update. -/
theorem pull8_eq (s : State) :
    (pull8 s).2 = { s with sp := s.sp + 1, bus := s.bus ++ [.read (s.sp + 1) (pull8 s).1],
                           draws := (pull8 s).2.draws } := by
  ext1 <;> simp

/-- What a pull gives depends on SP, memory, the map and the draws alone. -/
theorem pull8_congr {s t : State} (hsp : s.sp = t.sp) (hm : s.mem = t.mem) (hp : s.params = t.params)
    (hd : s.draws = t.draws) : (pull8 s).1 = (pull8 t).1 ∧ (pull8 s).2.draws = (pull8 t).2.draws := by
  simpa [pull8, hsp] using read8_congr (s := s.setSp (t.sp + 1)) (t := t.setSp (t.sp + 1)) (t.sp + 1) hm hp hd

/-- A push as one record update. -/
theorem push8_eq (v : Byte) (s : State) :
    push8 v s = { s with sp := s.sp - 1, mem := (push8 v s).mem, bus := s.bus ++ [.write s.sp v] } := by
  ext1 <;> simp

/-- What a write makes of memory depends on memory and the map alone. -/
theorem write8_mem_congr {s t : State} (a : Word) (v : Byte) (hm : s.mem = t.mem) (hp : s.params = t.params) :
    (write8 a v s).mem = (write8 a v t).mem := by
  have hk : s.kindAt a = t.kindAt a := by simp [State.kindAt, hp]
  unfold write8
  rw [hk]
  cases t.kindAt a <;> simp [hm]

/-- What a push makes of memory depends on SP, memory and the map alone. -/
theorem push8_mem_congr {s t : State} {v w : Byte} (hv : v = w) (hsp : s.sp = t.sp) (hm : s.mem = t.mem)
    (hp : s.params = t.params) : (push8 v s).mem = (push8 w t).mem := by
  simpa [push8, hsp, hv] using write8_mem_congr t.sp w hm hp

/-- A pull is a read just above SP: between states that agree in what a read depends on, and in the accesses so far, it
gives the same byte and they agree afterwards. -/
theorem pull8_read8 {s t : State} {a : Word} (ha : s.sp + 1 = a) (hm : s.mem = t.mem) (hp : s.params = t.params)
    (hd : s.draws = t.draws) (hb : s.bus = t.bus) :
    (pull8 s).1 = (read8 a t).1 ∧ (pull8 s).2.mem = (read8 a t).2.mem ∧ (pull8 s).2.params = (read8 a t).2.params ∧
      (pull8 s).2.draws = (read8 a t).2.draws ∧ (pull8 s).2.bus = (read8 a t).2.bus := by
  subst ha
  obtain ⟨h1, h2⟩ := read8_congr (s := s.setSp (s.sp + 1)) (t := t) (s.sp + 1) hm hp hd
  have h3 : (pull8 s).1 = (read8 (s.sp + 1) t).1 := h1
  refine ⟨h3, ?_, ?_, h2, ?_⟩
  · simpa using hm
  · simpa using hp
  · rw [pull8_bus, read8_bus, hb, h3]

end Sys2Proof.Machine
end

