-- ==== Sys2Proof/Laws/Exec.lean ====
section
/-! SUPPORT. What the larger shared operations do, each said once in the terms of Sys2Proof/Safety.lean: stores, stacking,
entries, returns, the shapes of the accumulator and memory instructions. -/

namespace Sys2Proof.Machine

open Sys2Proof.Safety

/-! ### Stores -/

/-- A write stores one byte where that is RAM. -/
theorem write8_stores (a : Word) (v : Byte) (s : State) : StoresByte s (write8 a v s) a v := by
  refine ⟨fun h => by simp [h], fun c h => ?_⟩
  rw [write8_peek, if_neg]
  rintro ⟨rfl, hr⟩
  rcases h with h | h <;> contradiction

/-- A push stores one byte at SP where that is RAM. -/
theorem push8_stores (v : Byte) (s : State) : StoresByte s (push8 v s) s.sp v := write8_stores s.sp v s

/-- One more store after others that leave its address alone. -/
theorem storesBytes_snoc {s t u : State} {l : List (Word × Byte)} {a : Word} {v : Byte} (h : StoresBytes s t l)
    (h' : StoresByte t u a v) (hk : ∀ c, t.kindAt c = s.kindAt c) (hne : ∀ e ∈ l, e.1 ≠ a) :
    StoresBytes s u (l ++ [(a, v)]) := by
  obtain ⟨h1, h2⟩ := h
  obtain ⟨h3, h4⟩ := h'
  rw [hk a] at h3
  constructor
  · intro e he hr
    rcases List.mem_append.1 he with he | he
    · rw [h4 _ (.inl (hne e he))]
      exact h1 e he hr
    · obtain rfl : e = (a, v) := by simpa using he
      exact h3 hr
  · intro c hc
    rw [h4 c, h2 c]
    · rcases hc with hc | hc
      · exact .inl fun e he => hc e (by simp [he])
      · exact .inr hc
    · rcases hc with hc | hc
      · exact .inl (hc (a, v) (by simp)).symm
      · by_cases hca : c = a
        · subst hca
          exact .inr (by rwa [hk])
        · exact .inl hca

/-- No store at all. -/
theorem storesBytes_nil (s : State) : StoresBytes s s [] := ⟨by simp, by simp⟩

/-- The first store. -/
theorem storesBytes_single {s u : State} {a : Word} {v : Byte} (h : StoresByte s u a v) : StoresBytes s u [(a, v)] :=
  storesBytes_snoc (storesBytes_nil s) h (fun _ => rfl) (by simp)

/-- A 16-bit write stores the high byte, then the low byte at the next address. -/
theorem write16_stores (a v : Word) (s : State) : StoresBytes s (write16 a v s) [(a, hi8 v), (a + 1, lo8 v)] :=
  storesBytes_snoc (storesBytes_single (write8_stores a (hi8 v) s)) (write8_stores (a + 1) (lo8 v) _) (by simp)
    (by simp)

/-- A 16-bit write as one record update. -/
theorem write16_eq (a v : Word) (s : State) :
    write16 a v s = { s with mem := (write16 a v s).mem, bus := s.bus ++ [.write a (hi8 v), .write (a + 1) (lo8 v)] } := by
  ext1 <;> simp [write16]

/-- One more push after others that leave the byte at SP alone. -/
theorem storesBytes_push {s t : State} {l : List (Word × Byte)} (v : Byte) (h : StoresBytes s t l)
    (hk : ∀ c, t.kindAt c = s.kindAt c) (hne : ∀ e ∈ l, e.1 ≠ t.sp) : StoresBytes s (push8 v t) (l ++ [(t.sp, v)]) :=
  storesBytes_snoc h (push8_stores v t) hk hne

/-- An address differs from what lies `k` below it. -/
theorem eq_sub_iff (a k : Word) : a = a - k ↔ k = 0 := by bv_omega

/-- A 16-bit push stores the low byte at SP, the high byte below it. -/
theorem push16_stores (v : Word) (s : State) :
    StoresBytes s (push16 v s) [(s.sp, lo8 v), (s.sp - 1, hi8 v)] := by
  have h := storesBytes_push (hi8 v) (storesBytes_single (push8_stores (lo8 v) s)) (by simp)
    (by simp [eq_sub_iff])
  simpa [push16] using h

/-- A 16-bit push as one record update. -/
theorem push16_eq (v : Word) (s : State) :
    push16 v s = { s with sp := s.sp - 2, mem := (push16 v s).mem,
                          bus := s.bus ++ [.write s.sp (lo8 v), .write (s.sp - 1) (hi8 v)] } := by
  ext1 <;> simp [push16]
  bv_omega

/-- Stacking as one record update: seven bytes, in the order of 60_exceptions.md R264. -/
theorem stackAll_eq (s : State) :
    stackAll s = { s with sp := s.sp - 7, mem := (stackAll s).mem,
                          bus := s.bus ++ (frameBytes s).map fun e => .write e.1 e.2 } := by
  ext1 <;> simp [stackAll, push16, frameBytes, BitVec.sub_sub]

/-- The seven accesses of stacking. -/
theorem stackAll_bus (s : State) : (stackAll s).bus = s.bus ++ (frameBytes s).map fun e => .write e.1 e.2 := by
  rw [stackAll_eq]

/-- Stacking stores the frame of 60_exceptions.md R265. -/
theorem stackAll_stores (s : State) : StoresBytes s (stackAll s) (frameBytes s) := by
  have h0 := storesBytes_single (push8_stores (lo8 s.pc) s)
  have h1 := storesBytes_push (hi8 s.pc) h0 (by simp) (by simp [eq_sub_iff])
  have h2 := storesBytes_push (lo8 s.x) h1 (by simp) (by simp [BitVec.sub_sub, eq_sub_iff])
  have h3 := storesBytes_push (hi8 s.x) h2 (by simp) (by simp [BitVec.sub_sub, eq_sub_iff])
  have h4 := storesBytes_push s.a h3 (by simp) (by simp [BitVec.sub_sub, eq_sub_iff])
  have h5 := storesBytes_push s.b h4 (by simp) (by simp [BitVec.sub_sub, eq_sub_iff])
  have h6 := storesBytes_push s.cc.toByte h5 (by simp) (by simp [BitVec.sub_sub, eq_sub_iff])
  simpa [stackAll, push16, frameBytes, BitVec.sub_sub] using h6

/-- Whether bytes are stored is a matter of memory alone. -/
theorem storesBytes_congr {s t u : State} {l : List (Word × Byte)} (h : StoresBytes s t l) (hm : u.mem = t.mem) :
    StoresBytes s u l := by
  have hp : u.peek = t.peek := by funext c; simp [State.peek, hm]
  simpa only [StoresBytes, hp] using h

/-- What stacking makes of memory depends on the registers, memory and the map alone. -/
theorem stackAll_mem_congr {s t : State} (ha : s.a = t.a) (hb : s.b = t.b) (hx : s.x = t.x) (hsp : s.sp = t.sp)
    (hpc : s.pc = t.pc) (hcc : s.cc = t.cc) (hm : s.mem = t.mem) (hp : s.params = t.params) :
    (stackAll s).mem = (stackAll t).mem := by
  simp only [stackAll, push16]
  refine push8_mem_congr (by simp [hcc]) (by simp [hsp]) (push8_mem_congr hb (by simp [hsp]) (push8_mem_congr ha
    (by simp [hsp]) (push8_mem_congr (by simp [hx]) (by simp [hsp]) (push8_mem_congr (by simp [hx]) (by simp [hsp])
    (push8_mem_congr (by simp [hpc]) (by simp [hsp]) (push8_mem_congr (by simp [hpc]) hsp hm hp) ?_) ?_) ?_) ?_) ?_) ?_ <;>
    simpa using hp

/-! ### Entries -/

/-- The second half of an entry: I is set, PC is the word at the vector, the two vector bytes are read. -/
theorem enterThrough_eq (vector : Word) (s : State) :
    enterThrough vector s = { s with
      cc := { s.cc with i := true }, pc := (read16 vector s).1, bus := s.bus ++ vectorReads vector s,
      draws := (read16 vector s).2.draws } := by
  obtain ⟨h1, h2⟩ := read16_congr (s := s.setCc { s.cc with i := true }) (t := s) vector rfl rfl rfl
  ext1 <;> simp [enterThrough, vectorReads, read16_bus, h1, h2]

/-- The reset sequence writes I, the latches and PC, and reads the vector. -/
theorem resetSequence_eq (s : State) :
    resetSequence s = { s with
      cc := { s.cc with i := true }, waiting := false, nmiPending := false, irqHoldoff := false,
      pc := (read16 resetVector s).1, bus := s.bus ++ vectorReads resetVector s,
      draws := (read16 resetVector s).2.draws } := by
  obtain ⟨h1, h2⟩ := read16_congr
    (s := (((s.setCc { s.cc with i := true }).setWaiting false).setNmiPending false).setIrqHoldoff false) (t := s)
    resetVector rfl rfl rfl
  ext1 <;> simp [resetSequence, vectorReads, read16_bus, h1, h2]

/-- An entry after WAI: nothing is stacked. -/
theorem interruptEntry_waiting {s : State} (vector : Word) (h : s.waiting = true) :
    interruptEntry vector s = { s with
      cc := { s.cc with i := true }, waiting := false, pc := (read16 vector s).1,
      bus := s.bus ++ vectorReads vector s, draws := (read16 vector s).2.draws } := by
  obtain ⟨h1, h2⟩ := read16_congr (s := s.setWaiting false) (t := s) vector rfl rfl rfl
  simp only [interruptEntry, h, if_true, enterThrough_eq]
  ext1 <;> simp [vectorReads, h1, h2]

/-- An entry from the program: the frame is stacked first. -/
theorem interruptEntry_running {s : State} (vector : Word) (h : s.waiting = false) :
    interruptEntry vector s = { s with
      sp := s.sp - 7, mem := (stackAll s).mem, cc := { s.cc with i := true }, pc := (read16 vector (stackAll s)).1,
      bus := s.bus ++ (frameBytes s).map (fun e => .write e.1 e.2) ++ vectorReads vector (stackAll s),
      draws := (read16 vector (stackAll s)).2.draws } := by
  simp only [interruptEntry, h, enterThrough_eq]
  ext1 <;> simp [h, stackAll_bus]

/-! ### The shapes of the accumulator and memory instructions -/

/-- Reading an 8-bit operand as one record update. -/
theorem readSrc8_eq (m : Src8) (s : State) :
    (readSrc8 m s).2 = { s with bus := (readSrc8 m s).2.bus, draws := (readSrc8 m s).2.draws } := by
  cases m
  · rfl
  · exact read8_eq _ _ ▸ rfl

/-- Reading a 16-bit operand as one record update. -/
theorem readSrc16_eq (m : Src16) (s : State) :
    (readSrc16 m s).2 = { s with bus := (readSrc16 m s).2.bus, draws := (readSrc16 m s).2.draws } := by
  cases m
  · rfl
  · exact read16_eq _ _ ▸ rfl

/-- A dual-operand instruction: the accumulator takes the result, the flags are as the operation says. -/
theorem combineAcc_takes (op : Byte → Byte → Flags → Byte × Flags) (r : Acc) (m : Src8) (s : State) :
    AccTakes r m (op (s.acc r) (readSrc8 m s).1 s.cc).1 (fun g => g = (op (s.acc r) (readSrc8 m s).1 s.cc).2) s
      (combineAcc op r m s) := by
  cases r <;> simp [combineAcc, AccTakes, other, KeepsPointers, KeepsSystem, KeepsMemory, State.peek]

/-- A comparison: only the flags change. -/
theorem compareAcc_only (op : Byte → Byte → Flags → Byte × Flags) (r : Acc) (m : Src8) (s : State) :
    OnlyFlags m (fun g => g = (op (s.acc r) (readSrc8 m s).1 s.cc).2) s (compareAcc op r m s) := by
  simp [compareAcc, OnlyFlags, KeepsPointers, KeepsSystem, KeepsMemory, State.peek]

/-- A single-operand instruction on an accumulator. -/
theorem modifyAcc_becomes (op : Byte → Flags → Byte × Flags) (r : Acc) (s : State) :
    AccBecomes r (op (s.acc r) s.cc).1 (fun g => g = (op (s.acc r) s.cc).2) s (modifyAcc op r s) := by
  cases r <;> simp [modifyAcc, AccBecomes, other, KeepsPointers, KeepsSystem, KeepsMemory]

/-- A single-operand instruction on a memory byte: one read, one write at the same address. -/
theorem modifyMem_becomes (op : Byte → Flags → Byte × Flags) (m : AddrX) (s : State) :
    ByteBecomes m (fun o => (op o s.cc).1) (fun o g => g = (op o s.cc).2) s (modifyMem op m s) := by
  have h := write8_stores (effAddrX m s) (op (read8 (effAddrX m s) s).1 s.cc).1 (read8 (effAddrX m s) s).2
  refine ⟨⟨fun hr => ?_, fun c hc => ?_⟩, ?_⟩
  · exact h.1 (by simpa using hr)
  · exact (h.2 c (by simpa using hc)).trans (by simp)
  · simp [modifyMem, Accesses, KeepsPointers, KeepsSystem]

/-! ### Returns -/

/-- A run of reads as one record update. -/
theorem readRun_eq (n : Nat) (a : Word) (s : State) :
    (readRun n a s).2 = { s with bus := (readRun n a s).2.bus, draws := (readRun n a s).2.draws } := by
  induction n generalizing a s with
  | zero => rfl
  | succ n ih =>
    simp only [readRun]
    rw [ih]
    ext1 <;> simp

/-- What a run of reads gives depends on memory, the map and the draws alone. -/
theorem readRun_congr {s t : State} (n : Nat) (a : Word) (hm : s.mem = t.mem) (hp : s.params = t.params)
    (hd : s.draws = t.draws) :
    (readRun n a s).1 = (readRun n a t).1 ∧ (readRun n a s).2.draws = (readRun n a t).2.draws := by
  induction n generalizing a s t with
  | zero => exact ⟨rfl, hd⟩
  | succ n ih =>
    obtain ⟨h1, h2⟩ := read8_congr a hm hp hd
    obtain ⟨h3, h4⟩ := ih (s := (read8 a s).2) (t := (read8 a t).2) (a + 1) (by simpa using hm) (by simpa using hp) h2
    exact ⟨by simp only [readRun, h1, h3], by simp only [readRun, h4]⟩

end Sys2Proof.Machine
end

