-- ==== Sys2Proof/Laws/Flags.lean ====
section
/-! SUPPORT. The flags that the shared flag computations write, one lemma per flag. -/

namespace Sys2Proof.Machine

@[simp] theorem Flags.nz8_n (f : Flags) (r : Byte) : (f.nz8 r).n = r.getLsbD 7 := rfl
@[simp] theorem Flags.nz8_z (f : Flags) (r : Byte) : (f.nz8 r).z = true ↔ r = 0 := decide_eq_true_iff
@[simp] theorem Flags.nz8_h (f : Flags) (r : Byte) : (f.nz8 r).h = f.h := rfl
@[simp] theorem Flags.nz8_i (f : Flags) (r : Byte) : (f.nz8 r).i = f.i := rfl
@[simp] theorem Flags.nz8_v (f : Flags) (r : Byte) : (f.nz8 r).v = f.v := rfl
@[simp] theorem Flags.nz8_c (f : Flags) (r : Byte) : (f.nz8 r).c = f.c := rfl

@[simp] theorem Flags.nz16_n (f : Flags) (r : Word) : (f.nz16 r).n = r.getLsbD 15 := rfl
@[simp] theorem Flags.nz16_z (f : Flags) (r : Word) : (f.nz16 r).z = true ↔ r = 0 := decide_eq_true_iff
@[simp] theorem Flags.nz16_h (f : Flags) (r : Word) : (f.nz16 r).h = f.h := rfl
@[simp] theorem Flags.nz16_i (f : Flags) (r : Word) : (f.nz16 r).i = f.i := rfl
@[simp] theorem Flags.nz16_v (f : Flags) (r : Word) : (f.nz16 r).v = f.v := rfl
@[simp] theorem Flags.nz16_c (f : Flags) (r : Word) : (f.nz16 r).c = f.c := rfl

@[simp] theorem Flags.move8_n (f : Flags) (r : Byte) : (f.move8 r).n = r.getLsbD 7 := rfl
@[simp] theorem Flags.move8_z (f : Flags) (r : Byte) : (f.move8 r).z = true ↔ r = 0 := decide_eq_true_iff
@[simp] theorem Flags.move8_v (f : Flags) (r : Byte) : (f.move8 r).v = false := rfl
@[simp] theorem Flags.move8_h (f : Flags) (r : Byte) : (f.move8 r).h = f.h := rfl
@[simp] theorem Flags.move8_i (f : Flags) (r : Byte) : (f.move8 r).i = f.i := rfl
@[simp] theorem Flags.move8_c (f : Flags) (r : Byte) : (f.move8 r).c = f.c := rfl

@[simp] theorem Flags.move16_n (f : Flags) (r : Word) : (f.move16 r).n = r.getLsbD 15 := rfl
@[simp] theorem Flags.move16_z (f : Flags) (r : Word) : (f.move16 r).z = true ↔ r = 0 := decide_eq_true_iff
@[simp] theorem Flags.move16_v (f : Flags) (r : Word) : (f.move16 r).v = false := rfl
@[simp] theorem Flags.move16_h (f : Flags) (r : Word) : (f.move16 r).h = f.h := rfl
@[simp] theorem Flags.move16_i (f : Flags) (r : Word) : (f.move16 r).i = f.i := rfl
@[simp] theorem Flags.move16_c (f : Flags) (r : Word) : (f.move16 r).c = f.c := rfl

@[simp] theorem add8_h (x y : Byte) (c : Bool) (f : Flags) :
    (add8 x y c f).2.h = true ↔ 16 ≤ x.toNat % 16 + y.toNat % 16 + c.toNat := decide_eq_true_iff
@[simp] theorem add8_n (x y : Byte) (c : Bool) (f : Flags) : (add8 x y c f).2.n = (add8 x y c f).1.getLsbD 7 := rfl
@[simp] theorem add8_z (x y : Byte) (c : Bool) (f : Flags) : (add8 x y c f).2.z = true ↔ (add8 x y c f).1 = 0 :=
  decide_eq_true_iff
@[simp] theorem add8_c (x y : Byte) (c : Bool) (f : Flags) : (add8 x y c f).2.c = true ↔ 256 ≤ addSum x y c :=
  decide_eq_true_iff
@[simp] theorem add8_i (x y : Byte) (c : Bool) (f : Flags) : (add8 x y c f).2.i = f.i := rfl

@[simp] theorem sub8_n (x y : Byte) (c : Bool) (f : Flags) : (sub8 x y c f).2.n = (sub8 x y c f).1.getLsbD 7 := rfl
@[simp] theorem sub8_z (x y : Byte) (c : Bool) (f : Flags) : (sub8 x y c f).2.z = true ↔ (sub8 x y c f).1 = 0 :=
  decide_eq_true_iff
@[simp] theorem sub8_c (x y : Byte) (c : Bool) (f : Flags) : (sub8 x y c f).2.c = true ↔ subDiff x y c < 0 :=
  decide_eq_true_iff
@[simp] theorem sub8_h (x y : Byte) (c : Bool) (f : Flags) : (sub8 x y c f).2.h = f.h := rfl
@[simp] theorem sub8_i (x y : Byte) (c : Bool) (f : Flags) : (sub8 x y c f).2.i = f.i := rfl

@[simp] theorem flagsShift_n (r : Byte) (c : Bool) (f : Flags) : (flagsShift r c f).n = r.getLsbD 7 := rfl
@[simp] theorem flagsShift_z (r : Byte) (c : Bool) (f : Flags) : (flagsShift r c f).z = true ↔ r = 0 := decide_eq_true_iff
@[simp] theorem flagsShift_c (r : Byte) (c : Bool) (f : Flags) : (flagsShift r c f).c = c := rfl
@[simp] theorem flagsShift_v (r : Byte) (c : Bool) (f : Flags) : (flagsShift r c f).v = (r.getLsbD 7 ^^ c) := rfl
@[simp] theorem flagsShift_h (r : Byte) (c : Bool) (f : Flags) : (flagsShift r c f).h = f.h := rfl
@[simp] theorem flagsShift_i (r : Byte) (c : Bool) (f : Flags) : (flagsShift r c f).i = f.i := rfl

end Sys2Proof.Machine
end

