-- ==== Sys2Proof/Laws/Step.lean ====
section
/-! SUPPORT. What a step can do, said once: the boundary taken, and what a fetch leaves. -/

namespace Sys2Proof.Machine

open Sys2Proof.Safety

/-- At a boundary where nothing comes first the step is the fetch and the instruction. -/
theorem step_atFetch {s : State} (h : AtFetch s) : step s = runInstruction (endHoldoff (beginStep s)) := by
  obtain ⟨h1, h2, h3, h4, h5⟩ := h
  have hi : irqAccepted s = false := by
    unfold irqAccepted
    rcases h4 with h | h | ⟨h, h'⟩ <;> simp [*]
  simp [step, boundary, *]

/-- The state an instruction is fetched from at a boundary. -/
theorem endHoldoff_beginStep (s : State) : endHoldoff (beginStep s) = { s with bus := [], irqHoldoff := false } := rfl

/-- The same step in terms of the state before it. -/
theorem step_atFetch_eq {s : State} (h : AtFetch s) :
    step s = executeFetched s.pc (fetch { s with bus := [], irqHoldoff := false }) := by
  rw [step_atFetch h]
  rfl

/-- At an unassigned code the instruction is executed: its meaning is the end of the run. -/
theorem executeFetched_unassigned (addr : Word) (op : Byte) (s : State) :
    executeFetched addr (.unassigned op, s) = .fault (.unassignedOpcode op s.pc) := rfl

/-- An assigned instruction at STOP_ADDRESS ends the run. -/
theorem executeFetched_stopAt {addr : Word} {p : Instr × State} (hi : isUnassigned p.1 = false)
    (ha : p.2.params.stopAddress = some addr) : executeFetched addr p = .fault (.stopAt addr) := by
  simp [executeFetched, endOfRun, hi, ha]

/-- Elsewhere an SWI ends the run where StopOnSWI is chosen. -/
theorem executeFetched_stopOnSwi {addr : Word} {p : Instr × State} (hi : p.1 = .swi)
    (ha : p.2.params.stopAddress ≠ some addr) (hs : p.2.params.stopOnSwi = true) :
    executeFetched addr p = .fault (.stopOnSwi addr) := by
  simp [executeFetched, endOfRun, isUnassigned, hi, ha, hs]

/-- Where no end of the run is asked for the instruction is executed. -/
theorem executeFetched_exec {addr : Word} {p : Instr × State} (ha : p.2.params.stopAddress ≠ some addr)
    (hs : p.2.params.stopOnSwi = false ∨ p.1 ≠ .swi) : executeFetched addr p = exec p.1 p.2 := by
  rcases hs with h | h <;> simp [executeFetched, endOfRun, ha, h]

/-- A next state after the fetch is that of the instruction. -/
theorem executeFetched_next {addr : Word} {p : Instr × State} {t : State} (h : executeFetched addr p = .next t) :
    exec p.1 p.2 = .next t := by
  unfold executeFetched at h
  split at h
  · cases h
  · exact h

/-- What a step that answers a next state did: an entry, nothing, or one instruction that was fetched. -/
theorem step_next {s t : State} (h : step s = .next t) :
    (boundary s = .reset ∧ t = resetSequence (beginStep s)) ∨
    (boundary s = .halt ∧ t = beginStep s) ∨
    (boundary s = .nmi ∧ t = acceptNmi (beginStep s)) ∨
    (boundary s = .irq ∧ t = acceptIrq (beginStep s)) ∨
    (boundary s = .wait ∧ t = endHoldoff (beginStep s)) ∨
    (boundary s = .instruction ∧ exec (fetch (endHoldoff (beginStep s))).1 (fetch (endHoldoff (beginStep s))).2 = .next t) := by
  unfold step at h
  cases hb : boundary s <;> rw [hb] at h
  case instruction =>
    refine .inr (.inr (.inr (.inr (.inr ⟨rfl, ?_⟩))))
    exact executeFetched_next h
  all_goals
    injection h with h
    subst h
    simp

/-- Where the first byte read is an unassigned code, that code is what is fetched, and the state is the one before. -/
theorem fetch_unassigned {s : State} (h : (read8 s.pc s).1 ∈ unassignedCodes) :
    fetch s = (.unassigned (read8 s.pc s).1, s) := by
  have k : ∀ op : Byte, op ∈ unassignedCodes → opLength op = 1 ∧ decodeOp op 0 0 = .unassigned op := by decide
  obtain ⟨h1, h2⟩ := k _ h
  simp only [fetch, h1, fetchOperand, Nat.reduceLeDiff, decide_false, Bool.false_eq_true, if_false, h2]

/-- The decoder gives an unassigned code only for a byte that is one. -/
theorem decodeOp_assigned {op : Byte} (b1 b2 : Byte) (h : op ∉ unassignedCodes) : isUnassigned (decodeOp op b1 b2) = false := by
  have k : ∀ n : Nat, n < 256 → BitVec.ofNat 8 n ∉ unassignedCodes →
      isUnassigned (decodeOp (BitVec.ofNat 8 n) b1 b2) = false := by
    intro n hn
    interval_cases n <;> first | exact fun _ => rfl | exact fun h => absurd (by decide) h
  simpa using k op.toNat op.isLt (by simpa using h)

/-- Where the first byte read is assigned, so is the instruction fetched. -/
theorem fetch_assigned {s : State} (h : (read8 s.pc s).1 ∉ unassignedCodes) : isUnassigned (fetch s).1 = false := by
  unfold fetch
  dsimp only
  split
  · rename_i h'
    exact h' ▸ decodeOp_assigned _ _ h
  · exact decodeOp_assigned _ _ h

/-- The first byte of a step's fetch is that of the state before the step. -/
theorem read8_begin (a : Word) (s : State) : (read8 a { s with bus := [], irqHoldoff := false }).1 = (read8 a s).1 := by
  have := read8_congr (s := { s with bus := [], irqHoldoff := false }) (t := s) a rfl rfl rfl
  exact this.1

/-- A read of a byte that memory holds, as one pair. -/
theorem read8_held_eq {s : State} {a : Word} (h : Held s a) :
    read8 a s = (s.peek a, { s with bus := s.bus ++ [.read a (s.peek a)] }) := by
  rcases h with h | h <;> simp [read8, h, State.logAccess, State.setBus]

/-! ### Fetching an operand byte changes nothing but the record of accesses and the count of draws -/

@[simp] theorem fetchOperand_a (w : Bool) (a : Word) (s : State) : (fetchOperand w a s).2.a = s.a := by
  unfold fetchOperand; split <;> simp
@[simp] theorem fetchOperand_b (w : Bool) (a : Word) (s : State) : (fetchOperand w a s).2.b = s.b := by
  unfold fetchOperand; split <;> simp
@[simp] theorem fetchOperand_x (w : Bool) (a : Word) (s : State) : (fetchOperand w a s).2.x = s.x := by
  unfold fetchOperand; split <;> simp
@[simp] theorem fetchOperand_sp (w : Bool) (a : Word) (s : State) : (fetchOperand w a s).2.sp = s.sp := by
  unfold fetchOperand; split <;> simp
@[simp] theorem fetchOperand_pc (w : Bool) (a : Word) (s : State) : (fetchOperand w a s).2.pc = s.pc := by
  unfold fetchOperand; split <;> simp
@[simp] theorem fetchOperand_cc (w : Bool) (a : Word) (s : State) : (fetchOperand w a s).2.cc = s.cc := by
  unfold fetchOperand; split <;> simp
@[simp] theorem fetchOperand_waiting (w : Bool) (a : Word) (s : State) : (fetchOperand w a s).2.waiting = s.waiting := by
  unfold fetchOperand; split <;> simp
@[simp] theorem fetchOperand_nmiPending (w : Bool) (a : Word) (s : State) : (fetchOperand w a s).2.nmiPending = s.nmiPending := by
  unfold fetchOperand; split <;> simp
@[simp] theorem fetchOperand_irqHoldoff (w : Bool) (a : Word) (s : State) : (fetchOperand w a s).2.irqHoldoff = s.irqHoldoff := by
  unfold fetchOperand; split <;> simp
@[simp] theorem fetchOperand_halted (w : Bool) (a : Word) (s : State) : (fetchOperand w a s).2.halted = s.halted := by
  unfold fetchOperand; split <;> simp
@[simp] theorem fetchOperand_irqLow (w : Bool) (a : Word) (s : State) : (fetchOperand w a s).2.irqLow = s.irqLow := by
  unfold fetchOperand; split <;> simp
@[simp] theorem fetchOperand_resetActive (w : Bool) (a : Word) (s : State) : (fetchOperand w a s).2.resetActive = s.resetActive := by
  unfold fetchOperand; split <;> simp
@[simp] theorem fetchOperand_mem (w : Bool) (a : Word) (s : State) : (fetchOperand w a s).2.mem = s.mem := by
  unfold fetchOperand; split <;> simp
@[simp] theorem fetchOperand_params (w : Bool) (a : Word) (s : State) : (fetchOperand w a s).2.params = s.params := by
  unfold fetchOperand; split <;> simp
@[simp] theorem fetchOperand_cycles (w : Bool) (a : Word) (s : State) : (fetchOperand w a s).2.cycles = s.cycles := by
  unfold fetchOperand; split <;> simp

/-- A fetched operand byte is one read, a byte the format does not have is none. -/
theorem fetchOperand_bus (w : Bool) (a : Word) (s : State) :
    (fetchOperand w a s).2.bus = s.bus ++ if w = true then [.read a (fetchOperand w a s).1] else [] := by
  unfold fetchOperand
  split
  · rw [read8_eq]
  · simp

/-- A fetch writes PC, the cycle count, the record of accesses and the count of draws, and nothing else. -/
theorem fetch_eq (s : State) :
    (fetch s).2 = { s with pc := (fetch s).2.pc, cycles := (fetch s).2.cycles, bus := (fetch s).2.bus,
                           draws := (fetch s).2.draws } := by
  unfold fetch
  dsimp only
  split
  · rfl
  · ext1 <;> simp

/-- A fetch leaves the parameters. -/
@[simp] theorem fetch_params (s : State) : (fetch s).2.params = s.params := by rw [fetch_eq]

/-- A fetch records at most three accesses more, all of them reads. -/
theorem fetch_bus (s : State) :
    ∃ l : List BusAccess, (fetch s).2.bus = s.bus ++ l ∧ l.length ≤ 3 ∧ ∀ e ∈ l, ∃ a v, e = .read a v := by
  unfold fetch
  dsimp only
  split
  · exact ⟨[], by simp⟩
  · simp only [State.setPc_bus, State.setCycles_bus, fetchOperand_bus, read8_bus, List.append_assoc]
    refine ⟨_, rfl, ?_, ?_⟩
    · split <;> split <;> simp
    · split <;> split <;> simp

/-- The state after fetching `i` of `n` bytes that memory holds. -/
def afterFetch (s : State) (i : Instr) (n : Nat) : State :=
  { s with pc := s.pc + BitVec.ofNat 16 n, cycles := s.cycles + instrCycles i, bus := s.bus ++ fetchReads s n }

/-- The instruction fetched and the state after, when memory holds the bytes the format of the first one has: the bytes
it has not count as zero. -/
theorem fetch_held {s : State} {n : Nat} (hn : opLength (s.peek s.pc) = n) (h1 : 1 ≤ n) (h3 : n ≤ 3)
    (h : ∀ k, k < n → Held s (s.pc + BitVec.ofNat 16 k)) :
    fetch s =
      match decodeOp (s.peek s.pc) (if 2 ≤ n then s.peek (s.pc + 1) else 0) (if 3 ≤ n then s.peek (s.pc + 2) else 0) with
      | .unassigned op => (.unassigned op, s)
      | i => (i, afterFetch s i n) := by
  have r0 := read8_held_eq (s := s) (a := s.pc) (by simpa using h 0 (by omega))
  unfold fetch
  simp only [r0, hn]
  obtain rfl | rfl | rfl : n = 1 ∨ n = 2 ∨ n = 3 := by omega
  · simp only [fetchOperand]
    rfl
  · have r1 := read8_held_eq (s := { s with bus := s.bus ++ [.read s.pc (s.peek s.pc)] }) (a := s.pc + 1)
      (show Held s (s.pc + 1) from h 1 (by omega))
    simp only [fetchOperand, Nat.le_refl, decide_true, if_true, r1]
    simp only [afterFetch, fetchReads, List.take, State.setPc, State.setCycles, List.append_assoc, List.cons_append,
      List.nil_append]
    rfl
  · have r1 := read8_held_eq (s := { s with bus := s.bus ++ [.read s.pc (s.peek s.pc)] }) (a := s.pc + 1)
      (show Held s (s.pc + 1) from h 1 (by omega))
    have r2 := read8_held_eq (s := { s with bus := s.bus ++ [.read s.pc (s.peek s.pc)] ++
      [.read (s.pc + 1) (s.peek (s.pc + 1))] }) (a := s.pc + 2) (show Held s (s.pc + 2) from h 2 (by omega))
    simp only [fetchOperand, Nat.le_refl, Nat.reduceLeDiff, decide_true, if_true]
    simp only [State.peek] at r1 r2 ⊢
    simp only [r1, r2]
    simp only [afterFetch, fetchReads, List.take, State.setPc, State.setCycles, List.append_assoc, List.cons_append,
      List.nil_append]
    rfl

/-- The same for the fetch of a step: what is recorded and held is that of the state before it. -/
theorem fetch_begin_held {s : State} {n : Nat} (hn : opLength (s.peek s.pc) = n) (h1 : 1 ≤ n) (h3 : n ≤ 3)
    (h : ∀ k, k < n → Held s (s.pc + BitVec.ofNat 16 k)) :
    fetch { s with bus := [], irqHoldoff := false } =
      match decodeOp (s.peek s.pc) (if 2 ≤ n then s.peek (s.pc + 1) else 0) (if 3 ≤ n then s.peek (s.pc + 2) else 0) with
      | .unassigned op => (.unassigned op, { s with bus := [], irqHoldoff := false })
      | i => (i, { s with pc := s.pc + BitVec.ofNat 16 n, irqHoldoff := false, cycles := s.cycles + instrCycles i,
                          bus := fetchReads s n }) :=
  fetch_held (s := { s with bus := [], irqHoldoff := false }) hn h1 h3 h

end Sys2Proof.Machine
end

