-- ==== Sys2Proof/Laws/HostMoves.lean ====
section
/-! SUPPORT. What the moves of the host leave, and how a run under a schedule goes on. -/

namespace Sys2Proof.Machine

open Sys2Proof.Safety

/-! ### No move changes a register or the wait -/

@[simp] theorem applyHostMove_a (mv : HostMove) (s : State) : (applyHostMove mv s).a = s.a := by
  cases mv <;> simp [applyHostMove, apply_ite State.a]

@[simp] theorem applyHostMoves_a (mvs : List HostMove) (s : State) : (applyHostMoves mvs s).a = s.a := by
  induction mvs generalizing s with
  | nil => rfl
  | cons mv rest ih => simp [applyHostMoves, ih]

@[simp] theorem applyHostMove_b (mv : HostMove) (s : State) : (applyHostMove mv s).b = s.b := by
  cases mv <;> simp [applyHostMove, apply_ite State.b]

@[simp] theorem applyHostMoves_b (mvs : List HostMove) (s : State) : (applyHostMoves mvs s).b = s.b := by
  induction mvs generalizing s with
  | nil => rfl
  | cons mv rest ih => simp [applyHostMoves, ih]

@[simp] theorem applyHostMove_x (mv : HostMove) (s : State) : (applyHostMove mv s).x = s.x := by
  cases mv <;> simp [applyHostMove, apply_ite State.x]

@[simp] theorem applyHostMoves_x (mvs : List HostMove) (s : State) : (applyHostMoves mvs s).x = s.x := by
  induction mvs generalizing s with
  | nil => rfl
  | cons mv rest ih => simp [applyHostMoves, ih]

@[simp] theorem applyHostMove_sp (mv : HostMove) (s : State) : (applyHostMove mv s).sp = s.sp := by
  cases mv <;> simp [applyHostMove, apply_ite State.sp]

@[simp] theorem applyHostMoves_sp (mvs : List HostMove) (s : State) : (applyHostMoves mvs s).sp = s.sp := by
  induction mvs generalizing s with
  | nil => rfl
  | cons mv rest ih => simp [applyHostMoves, ih]

@[simp] theorem applyHostMove_pc (mv : HostMove) (s : State) : (applyHostMove mv s).pc = s.pc := by
  cases mv <;> simp [applyHostMove, apply_ite State.pc]

@[simp] theorem applyHostMoves_pc (mvs : List HostMove) (s : State) : (applyHostMoves mvs s).pc = s.pc := by
  induction mvs generalizing s with
  | nil => rfl
  | cons mv rest ih => simp [applyHostMoves, ih]

@[simp] theorem applyHostMove_cc (mv : HostMove) (s : State) : (applyHostMove mv s).cc = s.cc := by
  cases mv <;> simp [applyHostMove, apply_ite State.cc]

@[simp] theorem applyHostMoves_cc (mvs : List HostMove) (s : State) : (applyHostMoves mvs s).cc = s.cc := by
  induction mvs generalizing s with
  | nil => rfl
  | cons mv rest ih => simp [applyHostMoves, ih]

@[simp] theorem applyHostMove_waiting (mv : HostMove) (s : State) : (applyHostMove mv s).waiting = s.waiting := by
  cases mv <;> simp [applyHostMove, apply_ite State.waiting]

@[simp] theorem applyHostMoves_waiting (mvs : List HostMove) (s : State) : (applyHostMoves mvs s).waiting = s.waiting := by
  induction mvs generalizing s with
  | nil => rfl
  | cons mv rest ih => simp [applyHostMoves, ih]

@[simp] theorem applyHostMove_params (mv : HostMove) (s : State) : (applyHostMove mv s).params = s.params := by
  cases mv <;> simp [applyHostMove, apply_ite State.params]

@[simp] theorem applyHostMoves_params (mvs : List HostMove) (s : State) : (applyHostMoves mvs s).params = s.params := by
  induction mvs generalizing s with
  | nil => rfl
  | cons mv rest ih => simp [applyHostMoves, ih]

/-! ### What wakes -/

/-- The test of the run says what `StuckWaiting` says. -/
theorem stuckWaiting_iff (schedule : List (List HostMove)) (s : State) :
    stuckWaiting schedule s = true ↔
      s.waiting = true ∧ s.resetActive = false ∧ s.nmiPending = false ∧ (s.cc.i = true ∨ s.irqLow = false) ∧
        ∀ mvs ∈ schedule, ∀ mv ∈ mvs, wakes s.cc.i mv = false := by
  simp [stuckWaiting, and_assoc]

/-- A move that does not wake leaves RESET and NMI inactive, and an IRQ that is not masked high. -/
theorem applyHostMove_quiet {mv : HostMove} {s : State} (h : wakes s.cc.i mv = false) (hr : s.resetActive = false)
    (hn : s.nmiPending = false) (hi : s.cc.i = true ∨ s.irqLow = false) :
    (applyHostMove mv s).resetActive = false ∧ (applyHostMove mv s).nmiPending = false ∧
      (s.cc.i = true ∨ (applyHostMove mv s).irqLow = false) := by
  cases mv with
  | resetLine active => exact ⟨h, hn, hi⟩
  | irqLine low => exact ⟨hr, hn, by simpa [wakes, applyHostMove, or_comm, imp_iff_not_or] using h⟩
  | haltLine active => exact ⟨hr, hn, hi⟩
  | nmiRequest => cases h
  | dmaWrite a v =>
    simp only [applyHostMove]
    split <;> exact ⟨hr, hn, hi⟩

/-- The same for the moves before a step. -/
theorem applyHostMoves_quiet {mvs : List HostMove} {s : State} (h : ∀ mv ∈ mvs, wakes s.cc.i mv = false)
    (hr : s.resetActive = false) (hn : s.nmiPending = false) (hi : s.cc.i = true ∨ s.irqLow = false) :
    (applyHostMoves mvs s).resetActive = false ∧ (applyHostMoves mvs s).nmiPending = false ∧
      (s.cc.i = true ∨ (applyHostMoves mvs s).irqLow = false) := by
  induction mvs generalizing s with
  | nil => exact ⟨hr, hn, hi⟩
  | cons mv rest ih =>
    obtain ⟨h1, h2, h3⟩ := applyHostMove_quiet (h mv (by simp)) hr hn hi
    simpa [applyHostMoves] using ih (s := applyHostMove mv s) (fun m hm => by simpa using h m (by simp [hm])) h1 h2
      (by simpa using h3)

/-! ### A run -/

/-- A run goes on with the next state of its first step, unless the wait is stuck. -/
theorem runSchedule_next {mvs : List HostMove} {rest : List (List HostMove)} {s t : State}
    (h : stuckWaiting (mvs :: rest) s = false) (hs : hostStep mvs s = .next t) :
    runSchedule (mvs :: rest) s = runSchedule rest t := by
  rw [runSchedule, if_neg (by simp [h]), hs]

/-- A run ends with the stop of its first step, and reports the state before the fetch. -/
theorem runSchedule_fault {mvs : List HostMove} {rest : List (List HostMove)} {s : State} {e : Fault}
    (h : stuckWaiting (mvs :: rest) s = false) (hs : hostStep mvs s = .fault e) :
    runSchedule (mvs :: rest) s = .stopped e (endHoldoff (beginStep (applyHostMoves mvs s))) := by
  rw [runSchedule, if_neg (by simp [h]), hs]

end Sys2Proof.Machine
end

