-- ==== Sys2Proof/Laws/PerInstr.lean ====
section
/-! SUPPORT. Statements made per instruction. -/

namespace Sys2Proof.Laws.EncodeLength

/-- The encoding of a well-formed instruction has as many bytes as its format, and its first byte alone says how many
(30_encoding.md R82). -/
def Statement (i : Instr) : Prop := i.wf = true → (encode i).length = i.length ∧ opLength ((encode i).headD 0) = i.length

theorem nop : Statement .nop := fun _ => ⟨rfl, show opLength 0x01 = 1 from rfl⟩
theorem tap : Statement .tap := fun _ => ⟨rfl, show opLength 0x06 = 1 from rfl⟩
theorem tpa : Statement .tpa := fun _ => ⟨rfl, show opLength 0x07 = 1 from rfl⟩
theorem inx : Statement .inx := fun _ => ⟨rfl, show opLength 0x08 = 1 from rfl⟩
theorem dex : Statement .dex := fun _ => ⟨rfl, show opLength 0x09 = 1 from rfl⟩
theorem clv : Statement .clv := fun _ => ⟨rfl, show opLength 0x0A = 1 from rfl⟩
theorem sev : Statement .sev := fun _ => ⟨rfl, show opLength 0x0B = 1 from rfl⟩
theorem clc : Statement .clc := fun _ => ⟨rfl, show opLength 0x0C = 1 from rfl⟩
theorem sec : Statement .sec := fun _ => ⟨rfl, show opLength 0x0D = 1 from rfl⟩
theorem cli : Statement .cli := fun _ => ⟨rfl, show opLength 0x0E = 1 from rfl⟩
theorem sei : Statement .sei := fun _ => ⟨rfl, show opLength 0x0F = 1 from rfl⟩
theorem sba : Statement .sba := fun _ => ⟨rfl, show opLength 0x10 = 1 from rfl⟩
theorem cba : Statement .cba := fun _ => ⟨rfl, show opLength 0x11 = 1 from rfl⟩
theorem tab : Statement .tab := fun _ => ⟨rfl, show opLength 0x16 = 1 from rfl⟩
theorem tba : Statement .tba := fun _ => ⟨rfl, show opLength 0x17 = 1 from rfl⟩
theorem daa : Statement .daa := fun _ => ⟨rfl, show opLength 0x19 = 1 from rfl⟩
theorem aba : Statement .aba := fun _ => ⟨rfl, show opLength 0x1B = 1 from rfl⟩
theorem bra (rel : Byte) : Statement (.bra rel) := fun _ => ⟨rfl, show opLength 0x20 = 2 from rfl⟩
theorem bhi (rel : Byte) : Statement (.bhi rel) := fun _ => ⟨rfl, show opLength 0x22 = 2 from rfl⟩
theorem bls (rel : Byte) : Statement (.bls rel) := fun _ => ⟨rfl, show opLength 0x23 = 2 from rfl⟩
theorem bcc (rel : Byte) : Statement (.bcc rel) := fun _ => ⟨rfl, show opLength 0x24 = 2 from rfl⟩
theorem bcs (rel : Byte) : Statement (.bcs rel) := fun _ => ⟨rfl, show opLength 0x25 = 2 from rfl⟩
theorem bne (rel : Byte) : Statement (.bne rel) := fun _ => ⟨rfl, show opLength 0x26 = 2 from rfl⟩
theorem beq (rel : Byte) : Statement (.beq rel) := fun _ => ⟨rfl, show opLength 0x27 = 2 from rfl⟩
theorem bvc (rel : Byte) : Statement (.bvc rel) := fun _ => ⟨rfl, show opLength 0x28 = 2 from rfl⟩
theorem bvs (rel : Byte) : Statement (.bvs rel) := fun _ => ⟨rfl, show opLength 0x29 = 2 from rfl⟩
theorem bpl (rel : Byte) : Statement (.bpl rel) := fun _ => ⟨rfl, show opLength 0x2A = 2 from rfl⟩
theorem bmi (rel : Byte) : Statement (.bmi rel) := fun _ => ⟨rfl, show opLength 0x2B = 2 from rfl⟩
theorem bge (rel : Byte) : Statement (.bge rel) := fun _ => ⟨rfl, show opLength 0x2C = 2 from rfl⟩
theorem blt (rel : Byte) : Statement (.blt rel) := fun _ => ⟨rfl, show opLength 0x2D = 2 from rfl⟩
theorem bgt (rel : Byte) : Statement (.bgt rel) := fun _ => ⟨rfl, show opLength 0x2E = 2 from rfl⟩
theorem ble (rel : Byte) : Statement (.ble rel) := fun _ => ⟨rfl, show opLength 0x2F = 2 from rfl⟩
theorem tsx : Statement .tsx := fun _ => ⟨rfl, show opLength 0x30 = 1 from rfl⟩
theorem ins : Statement .ins := fun _ => ⟨rfl, show opLength 0x31 = 1 from rfl⟩
theorem pula : Statement .pula := fun _ => ⟨rfl, show opLength 0x32 = 1 from rfl⟩
theorem pulb : Statement .pulb := fun _ => ⟨rfl, show opLength 0x33 = 1 from rfl⟩
theorem des : Statement .des := fun _ => ⟨rfl, show opLength 0x34 = 1 from rfl⟩
theorem txs : Statement .txs := fun _ => ⟨rfl, show opLength 0x35 = 1 from rfl⟩
theorem psha : Statement .psha := fun _ => ⟨rfl, show opLength 0x36 = 1 from rfl⟩
theorem pshb : Statement .pshb := fun _ => ⟨rfl, show opLength 0x37 = 1 from rfl⟩
theorem rts : Statement .rts := fun _ => ⟨rfl, show opLength 0x39 = 1 from rfl⟩
theorem rti : Statement .rti := fun _ => ⟨rfl, show opLength 0x3B = 1 from rfl⟩
theorem wai : Statement .wai := fun _ => ⟨rfl, show opLength 0x3E = 1 from rfl⟩
theorem swi : Statement .swi := fun _ => ⟨rfl, show opLength 0x3F = 1 from rfl⟩
theorem nega : Statement .nega := fun _ => ⟨rfl, show opLength 0x40 = 1 from rfl⟩
theorem coma : Statement .coma := fun _ => ⟨rfl, show opLength 0x43 = 1 from rfl⟩
theorem lsra : Statement .lsra := fun _ => ⟨rfl, show opLength 0x44 = 1 from rfl⟩
theorem rora : Statement .rora := fun _ => ⟨rfl, show opLength 0x46 = 1 from rfl⟩
theorem asra : Statement .asra := fun _ => ⟨rfl, show opLength 0x47 = 1 from rfl⟩
theorem asla : Statement .asla := fun _ => ⟨rfl, show opLength 0x48 = 1 from rfl⟩
theorem rola : Statement .rola := fun _ => ⟨rfl, show opLength 0x49 = 1 from rfl⟩
theorem deca : Statement .deca := fun _ => ⟨rfl, show opLength 0x4A = 1 from rfl⟩
theorem inca : Statement .inca := fun _ => ⟨rfl, show opLength 0x4C = 1 from rfl⟩
theorem tsta : Statement .tsta := fun _ => ⟨rfl, show opLength 0x4D = 1 from rfl⟩
theorem clra : Statement .clra := fun _ => ⟨rfl, show opLength 0x4F = 1 from rfl⟩
theorem negb : Statement .negb := fun _ => ⟨rfl, show opLength 0x50 = 1 from rfl⟩
theorem comb : Statement .comb := fun _ => ⟨rfl, show opLength 0x53 = 1 from rfl⟩
theorem lsrb : Statement .lsrb := fun _ => ⟨rfl, show opLength 0x54 = 1 from rfl⟩
theorem rorb : Statement .rorb := fun _ => ⟨rfl, show opLength 0x56 = 1 from rfl⟩
theorem asrb : Statement .asrb := fun _ => ⟨rfl, show opLength 0x57 = 1 from rfl⟩
theorem aslb : Statement .aslb := fun _ => ⟨rfl, show opLength 0x58 = 1 from rfl⟩
theorem rolb : Statement .rolb := fun _ => ⟨rfl, show opLength 0x59 = 1 from rfl⟩
theorem decb : Statement .decb := fun _ => ⟨rfl, show opLength 0x5A = 1 from rfl⟩
theorem incb : Statement .incb := fun _ => ⟨rfl, show opLength 0x5C = 1 from rfl⟩
theorem tstb : Statement .tstb := fun _ => ⟨rfl, show opLength 0x5D = 1 from rfl⟩
theorem clrb : Statement .clrb := fun _ => ⟨rfl, show opLength 0x5F = 1 from rfl⟩
theorem neg (m : AddrX) : Statement (.neg m) := fun _ =>
  match m with
  | .idx _ => ⟨rfl, show opLength 0x60 = 2 from rfl⟩
  | .ext _ => ⟨rfl, show opLength 0x70 = 3 from rfl⟩
theorem com (m : AddrX) : Statement (.com m) := fun _ =>
  match m with
  | .idx _ => ⟨rfl, show opLength 0x63 = 2 from rfl⟩
  | .ext _ => ⟨rfl, show opLength 0x73 = 3 from rfl⟩
theorem lsr (m : AddrX) : Statement (.lsr m) := fun _ =>
  match m with
  | .idx _ => ⟨rfl, show opLength 0x64 = 2 from rfl⟩
  | .ext _ => ⟨rfl, show opLength 0x74 = 3 from rfl⟩
theorem ror (m : AddrX) : Statement (.ror m) := fun _ =>
  match m with
  | .idx _ => ⟨rfl, show opLength 0x66 = 2 from rfl⟩
  | .ext _ => ⟨rfl, show opLength 0x76 = 3 from rfl⟩
theorem asr (m : AddrX) : Statement (.asr m) := fun _ =>
  match m with
  | .idx _ => ⟨rfl, show opLength 0x67 = 2 from rfl⟩
  | .ext _ => ⟨rfl, show opLength 0x77 = 3 from rfl⟩
theorem asl (m : AddrX) : Statement (.asl m) := fun _ =>
  match m with
  | .idx _ => ⟨rfl, show opLength 0x68 = 2 from rfl⟩
  | .ext _ => ⟨rfl, show opLength 0x78 = 3 from rfl⟩
theorem rol (m : AddrX) : Statement (.rol m) := fun _ =>
  match m with
  | .idx _ => ⟨rfl, show opLength 0x69 = 2 from rfl⟩
  | .ext _ => ⟨rfl, show opLength 0x79 = 3 from rfl⟩
theorem dec (m : AddrX) : Statement (.dec m) := fun _ =>
  match m with
  | .idx _ => ⟨rfl, show opLength 0x6A = 2 from rfl⟩
  | .ext _ => ⟨rfl, show opLength 0x7A = 3 from rfl⟩
theorem inc (m : AddrX) : Statement (.inc m) := fun _ =>
  match m with
  | .idx _ => ⟨rfl, show opLength 0x6C = 2 from rfl⟩
  | .ext _ => ⟨rfl, show opLength 0x7C = 3 from rfl⟩
theorem tst (m : AddrX) : Statement (.tst m) := fun _ =>
  match m with
  | .idx _ => ⟨rfl, show opLength 0x6D = 2 from rfl⟩
  | .ext _ => ⟨rfl, show opLength 0x7D = 3 from rfl⟩
theorem jmp (m : AddrX) : Statement (.jmp m) := fun _ =>
  match m with
  | .idx _ => ⟨rfl, show opLength 0x6E = 2 from rfl⟩
  | .ext _ => ⟨rfl, show opLength 0x7E = 3 from rfl⟩
theorem clr (m : AddrX) : Statement (.clr m) := fun _ =>
  match m with
  | .idx _ => ⟨rfl, show opLength 0x6F = 2 from rfl⟩
  | .ext _ => ⟨rfl, show opLength 0x7F = 3 from rfl⟩
theorem suba (m : Src8) : Statement (.suba m) := fun _ =>
  match m with
  | .imm _ => ⟨rfl, show opLength 0x80 = 2 from rfl⟩
  | .mem (.dir _) => ⟨rfl, show opLength 0x90 = 2 from rfl⟩
  | .mem (.idx _) => ⟨rfl, show opLength 0xA0 = 2 from rfl⟩
  | .mem (.ext _) => ⟨rfl, show opLength 0xB0 = 3 from rfl⟩
theorem cmpa (m : Src8) : Statement (.cmpa m) := fun _ =>
  match m with
  | .imm _ => ⟨rfl, show opLength 0x81 = 2 from rfl⟩
  | .mem (.dir _) => ⟨rfl, show opLength 0x91 = 2 from rfl⟩
  | .mem (.idx _) => ⟨rfl, show opLength 0xA1 = 2 from rfl⟩
  | .mem (.ext _) => ⟨rfl, show opLength 0xB1 = 3 from rfl⟩
theorem sbca (m : Src8) : Statement (.sbca m) := fun _ =>
  match m with
  | .imm _ => ⟨rfl, show opLength 0x82 = 2 from rfl⟩
  | .mem (.dir _) => ⟨rfl, show opLength 0x92 = 2 from rfl⟩
  | .mem (.idx _) => ⟨rfl, show opLength 0xA2 = 2 from rfl⟩
  | .mem (.ext _) => ⟨rfl, show opLength 0xB2 = 3 from rfl⟩
theorem anda (m : Src8) : Statement (.anda m) := fun _ =>
  match m with
  | .imm _ => ⟨rfl, show opLength 0x84 = 2 from rfl⟩
  | .mem (.dir _) => ⟨rfl, show opLength 0x94 = 2 from rfl⟩
  | .mem (.idx _) => ⟨rfl, show opLength 0xA4 = 2 from rfl⟩
  | .mem (.ext _) => ⟨rfl, show opLength 0xB4 = 3 from rfl⟩
theorem bita (m : Src8) : Statement (.bita m) := fun _ =>
  match m with
  | .imm _ => ⟨rfl, show opLength 0x85 = 2 from rfl⟩
  | .mem (.dir _) => ⟨rfl, show opLength 0x95 = 2 from rfl⟩
  | .mem (.idx _) => ⟨rfl, show opLength 0xA5 = 2 from rfl⟩
  | .mem (.ext _) => ⟨rfl, show opLength 0xB5 = 3 from rfl⟩
theorem ldaa (m : Src8) : Statement (.ldaa m) := fun _ =>
  match m with
  | .imm _ => ⟨rfl, show opLength 0x86 = 2 from rfl⟩
  | .mem (.dir _) => ⟨rfl, show opLength 0x96 = 2 from rfl⟩
  | .mem (.idx _) => ⟨rfl, show opLength 0xA6 = 2 from rfl⟩
  | .mem (.ext _) => ⟨rfl, show opLength 0xB6 = 3 from rfl⟩
theorem eora (m : Src8) : Statement (.eora m) := fun _ =>
  match m with
  | .imm _ => ⟨rfl, show opLength 0x88 = 2 from rfl⟩
  | .mem (.dir _) => ⟨rfl, show opLength 0x98 = 2 from rfl⟩
  | .mem (.idx _) => ⟨rfl, show opLength 0xA8 = 2 from rfl⟩
  | .mem (.ext _) => ⟨rfl, show opLength 0xB8 = 3 from rfl⟩
theorem adca (m : Src8) : Statement (.adca m) := fun _ =>
  match m with
  | .imm _ => ⟨rfl, show opLength 0x89 = 2 from rfl⟩
  | .mem (.dir _) => ⟨rfl, show opLength 0x99 = 2 from rfl⟩
  | .mem (.idx _) => ⟨rfl, show opLength 0xA9 = 2 from rfl⟩
  | .mem (.ext _) => ⟨rfl, show opLength 0xB9 = 3 from rfl⟩
theorem oraa (m : Src8) : Statement (.oraa m) := fun _ =>
  match m with
  | .imm _ => ⟨rfl, show opLength 0x8A = 2 from rfl⟩
  | .mem (.dir _) => ⟨rfl, show opLength 0x9A = 2 from rfl⟩
  | .mem (.idx _) => ⟨rfl, show opLength 0xAA = 2 from rfl⟩
  | .mem (.ext _) => ⟨rfl, show opLength 0xBA = 3 from rfl⟩
theorem adda (m : Src8) : Statement (.adda m) := fun _ =>
  match m with
  | .imm _ => ⟨rfl, show opLength 0x8B = 2 from rfl⟩
  | .mem (.dir _) => ⟨rfl, show opLength 0x9B = 2 from rfl⟩
  | .mem (.idx _) => ⟨rfl, show opLength 0xAB = 2 from rfl⟩
  | .mem (.ext _) => ⟨rfl, show opLength 0xBB = 3 from rfl⟩
theorem cpx (m : Src16) : Statement (.cpx m) := fun _ =>
  match m with
  | .imm _ => ⟨rfl, show opLength 0x8C = 3 from rfl⟩
  | .mem (.dir _) => ⟨rfl, show opLength 0x9C = 2 from rfl⟩
  | .mem (.idx _) => ⟨rfl, show opLength 0xAC = 2 from rfl⟩
  | .mem (.ext _) => ⟨rfl, show opLength 0xBC = 3 from rfl⟩
theorem bsr (rel : Byte) : Statement (.bsr rel) := fun _ => ⟨rfl, show opLength 0x8D = 2 from rfl⟩
theorem lds (m : Src16) : Statement (.lds m) := fun _ =>
  match m with
  | .imm _ => ⟨rfl, show opLength 0x8E = 3 from rfl⟩
  | .mem (.dir _) => ⟨rfl, show opLength 0x9E = 2 from rfl⟩
  | .mem (.idx _) => ⟨rfl, show opLength 0xAE = 2 from rfl⟩
  | .mem (.ext _) => ⟨rfl, show opLength 0xBE = 3 from rfl⟩
theorem staa (m : Addr) : Statement (.staa m) := fun _ =>
  match m with
  | .dir _ => ⟨rfl, show opLength 0x97 = 2 from rfl⟩
  | .idx _ => ⟨rfl, show opLength 0xA7 = 2 from rfl⟩
  | .ext _ => ⟨rfl, show opLength 0xB7 = 3 from rfl⟩
theorem sts (m : Addr) : Statement (.sts m) := fun _ =>
  match m with
  | .dir _ => ⟨rfl, show opLength 0x9F = 2 from rfl⟩
  | .idx _ => ⟨rfl, show opLength 0xAF = 2 from rfl⟩
  | .ext _ => ⟨rfl, show opLength 0xBF = 3 from rfl⟩
theorem jsr (m : AddrX) : Statement (.jsr m) := fun _ =>
  match m with
  | .idx _ => ⟨rfl, show opLength 0xAD = 2 from rfl⟩
  | .ext _ => ⟨rfl, show opLength 0xBD = 3 from rfl⟩
theorem subb (m : Src8) : Statement (.subb m) := fun _ =>
  match m with
  | .imm _ => ⟨rfl, show opLength 0xC0 = 2 from rfl⟩
  | .mem (.dir _) => ⟨rfl, show opLength 0xD0 = 2 from rfl⟩
  | .mem (.idx _) => ⟨rfl, show opLength 0xE0 = 2 from rfl⟩
  | .mem (.ext _) => ⟨rfl, show opLength 0xF0 = 3 from rfl⟩
theorem cmpb (m : Src8) : Statement (.cmpb m) := fun _ =>
  match m with
  | .imm _ => ⟨rfl, show opLength 0xC1 = 2 from rfl⟩
  | .mem (.dir _) => ⟨rfl, show opLength 0xD1 = 2 from rfl⟩
  | .mem (.idx _) => ⟨rfl, show opLength 0xE1 = 2 from rfl⟩
  | .mem (.ext _) => ⟨rfl, show opLength 0xF1 = 3 from rfl⟩
theorem sbcb (m : Src8) : Statement (.sbcb m) := fun _ =>
  match m with
  | .imm _ => ⟨rfl, show opLength 0xC2 = 2 from rfl⟩
  | .mem (.dir _) => ⟨rfl, show opLength 0xD2 = 2 from rfl⟩
  | .mem (.idx _) => ⟨rfl, show opLength 0xE2 = 2 from rfl⟩
  | .mem (.ext _) => ⟨rfl, show opLength 0xF2 = 3 from rfl⟩
theorem andb (m : Src8) : Statement (.andb m) := fun _ =>
  match m with
  | .imm _ => ⟨rfl, show opLength 0xC4 = 2 from rfl⟩
  | .mem (.dir _) => ⟨rfl, show opLength 0xD4 = 2 from rfl⟩
  | .mem (.idx _) => ⟨rfl, show opLength 0xE4 = 2 from rfl⟩
  | .mem (.ext _) => ⟨rfl, show opLength 0xF4 = 3 from rfl⟩
theorem bitb (m : Src8) : Statement (.bitb m) := fun _ =>
  match m with
  | .imm _ => ⟨rfl, show opLength 0xC5 = 2 from rfl⟩
  | .mem (.dir _) => ⟨rfl, show opLength 0xD5 = 2 from rfl⟩
  | .mem (.idx _) => ⟨rfl, show opLength 0xE5 = 2 from rfl⟩
  | .mem (.ext _) => ⟨rfl, show opLength 0xF5 = 3 from rfl⟩
theorem ldab (m : Src8) : Statement (.ldab m) := fun _ =>
  match m with
  | .imm _ => ⟨rfl, show opLength 0xC6 = 2 from rfl⟩
  | .mem (.dir _) => ⟨rfl, show opLength 0xD6 = 2 from rfl⟩
  | .mem (.idx _) => ⟨rfl, show opLength 0xE6 = 2 from rfl⟩
  | .mem (.ext _) => ⟨rfl, show opLength 0xF6 = 3 from rfl⟩
theorem eorb (m : Src8) : Statement (.eorb m) := fun _ =>
  match m with
  | .imm _ => ⟨rfl, show opLength 0xC8 = 2 from rfl⟩
  | .mem (.dir _) => ⟨rfl, show opLength 0xD8 = 2 from rfl⟩
  | .mem (.idx _) => ⟨rfl, show opLength 0xE8 = 2 from rfl⟩
  | .mem (.ext _) => ⟨rfl, show opLength 0xF8 = 3 from rfl⟩
theorem adcb (m : Src8) : Statement (.adcb m) := fun _ =>
  match m with
  | .imm _ => ⟨rfl, show opLength 0xC9 = 2 from rfl⟩
  | .mem (.dir _) => ⟨rfl, show opLength 0xD9 = 2 from rfl⟩
  | .mem (.idx _) => ⟨rfl, show opLength 0xE9 = 2 from rfl⟩
  | .mem (.ext _) => ⟨rfl, show opLength 0xF9 = 3 from rfl⟩
theorem orab (m : Src8) : Statement (.orab m) := fun _ =>
  match m with
  | .imm _ => ⟨rfl, show opLength 0xCA = 2 from rfl⟩
  | .mem (.dir _) => ⟨rfl, show opLength 0xDA = 2 from rfl⟩
  | .mem (.idx _) => ⟨rfl, show opLength 0xEA = 2 from rfl⟩
  | .mem (.ext _) => ⟨rfl, show opLength 0xFA = 3 from rfl⟩
theorem addb (m : Src8) : Statement (.addb m) := fun _ =>
  match m with
  | .imm _ => ⟨rfl, show opLength 0xCB = 2 from rfl⟩
  | .mem (.dir _) => ⟨rfl, show opLength 0xDB = 2 from rfl⟩
  | .mem (.idx _) => ⟨rfl, show opLength 0xEB = 2 from rfl⟩
  | .mem (.ext _) => ⟨rfl, show opLength 0xFB = 3 from rfl⟩
theorem ldx (m : Src16) : Statement (.ldx m) := fun _ =>
  match m with
  | .imm _ => ⟨rfl, show opLength 0xCE = 3 from rfl⟩
  | .mem (.dir _) => ⟨rfl, show opLength 0xDE = 2 from rfl⟩
  | .mem (.idx _) => ⟨rfl, show opLength 0xEE = 2 from rfl⟩
  | .mem (.ext _) => ⟨rfl, show opLength 0xFE = 3 from rfl⟩
theorem stab (m : Addr) : Statement (.stab m) := fun _ =>
  match m with
  | .dir _ => ⟨rfl, show opLength 0xD7 = 2 from rfl⟩
  | .idx _ => ⟨rfl, show opLength 0xE7 = 2 from rfl⟩
  | .ext _ => ⟨rfl, show opLength 0xF7 = 3 from rfl⟩
theorem stx (m : Addr) : Statement (.stx m) := fun _ =>
  match m with
  | .dir _ => ⟨rfl, show opLength 0xDF = 2 from rfl⟩
  | .idx _ => ⟨rfl, show opLength 0xEF = 2 from rfl⟩
  | .ext _ => ⟨rfl, show opLength 0xFF = 3 from rfl⟩
theorem unassigned (op : Byte) : Statement (.unassigned op) := by
  have key : ∀ op : Byte, op ∈ unassignedCodes → opLength op = 1 := by decide
  intro h
  exact ⟨rfl, key op (by simpa [Instr.wf] using h)⟩

end Sys2Proof.Laws.EncodeLength
end

