-- ==== Sys2Proof/Tests/Slice0.lean ====
section
/-! SUPPORT. Small tests: the well-formedness checks, one word of every row of the opcode map, one step of every
instruction against 95_test_vectors.md or a calculation by hand from its rule, the events of section 2.8, and for each
statement with hypotheses a state and operands that meet them all. Expected values are the spec's, never the model's. -/

namespace Sys2Proof.Tests

open Sys2Proof.Machine Sys2Proof.Safety

/-! ### Helpers -/

/-- The state of reset with these registers and PC at 0100h, as 95_test_vectors.md section 2 starts. -/
def cpu (a b : Byte) (x sp : Word) (ccr : Byte) : State :=
  { State.reset with a := a, b := b, x := x, sp := sp, pc := 0x0100, cc := Flags.ofByte ccr }

/-- The state with these bytes in memory. -/
def poke (data : List (Word × Byte)) (s : State) : State :=
  data.foldl (fun t e => t.setMem (Memory.set t.mem e.1.toNat e.2)) s

/-- The state with these bytes from PC on. -/
def loaded (code : List Byte) (s : State) : State :=
  poke ((List.range code.length).map fun k => (s.pc + BitVec.ofNat 16 k, code.getD k 0)) s

/-- The next state, if there is one. -/
def nextOf (o : Host.Outcome State Fault Refusal) : Option State :=
  match o with
  | .next t => some t
  | .fault _ => none
  | .refused _ => none

/-- The reason of a stop, if there is one. -/
def stopOf (o : Host.Outcome State Fault Refusal) : Option Fault :=
  match o with
  | .next _ => none
  | .fault e => some e
  | .refused _ => none

/-- What a row of 95_test_vectors.md shows: the registers and the memory writes in order. -/
structure Seen where
  a : Byte
  b : Byte
  x : Word
  sp : Word
  pc : Word
  ccr : Byte
  writes : List (Word × Byte)
  deriving DecidableEq, Repr

/-- The writes among the recorded accesses. -/
def writesOf (l : List BusAccess) : List (Word × Byte) :=
  l.filterMap fun e => match e with
    | .write a v => some (a, v)
    | .read _ _ => none

/-- What is seen of a state. -/
def seen (t : State) : Seen := ⟨t.a, t.b, t.x, t.sp, t.pc, t.cc.toByte, writesOf t.bus⟩

/-- One step from the state gives what is seen. -/
abbrev gives (s : State) (r : Seen) : Prop := (nextOf (step s)).map seen = some r

/-- The instruction that these bytes and nothing more decode to. -/
def readAll (bytes : List Byte) : Option Instr :=
  match decode bytes with
  | .ok (i, []) => some i
  | .ok (_, _ :: _) => none
  | .error _ => none

/-! ### Well-formedness -/

/-- 01h is NOP and 20h is BRA, so neither may be called unassigned; 00h and FDh may (30_encoding.md R86). -/
theorem test_wellFormed : (Instr.unassigned 0x01).wf = false ∧ (Instr.unassigned 0x20).wf = false ∧
    (Instr.unassigned 0x00).wf = true ∧ (Instr.unassigned 0xFD).wf = true ∧ Instr.nop.wf = true := by decide

/-! ### Decoding: every assigned byte of 30_encoding.md R84, operand bytes 12h and 34h -/

theorem test_decode_0x :
    readAll [0x01] = some .nop ∧ readAll [0x06] = some .tap ∧ readAll [0x07] = some .tpa ∧
    readAll [0x08] = some .inx ∧ readAll [0x09] = some .dex ∧ readAll [0x0A] = some .clv ∧
    readAll [0x0B] = some .sev ∧ readAll [0x0C] = some .clc ∧ readAll [0x0D] = some .sec ∧
    readAll [0x0E] = some .cli ∧ readAll [0x0F] = some .sei := by decide

theorem test_decode_1x :
    readAll [0x10] = some .sba ∧ readAll [0x11] = some .cba ∧ readAll [0x16] = some .tab ∧
    readAll [0x17] = some .tba ∧ readAll [0x19] = some .daa ∧ readAll [0x1B] = some .aba := by decide

theorem test_decode_2x :
    readAll [0x20, 0x12] = some (.bra 0x12) ∧ readAll [0x22, 0x12] = some (.bhi 0x12) ∧
    readAll [0x23, 0x12] = some (.bls 0x12) ∧ readAll [0x24, 0x12] = some (.bcc 0x12) ∧
    readAll [0x25, 0x12] = some (.bcs 0x12) ∧ readAll [0x26, 0x12] = some (.bne 0x12) ∧
    readAll [0x27, 0x12] = some (.beq 0x12) ∧ readAll [0x28, 0x12] = some (.bvc 0x12) ∧
    readAll [0x29, 0x12] = some (.bvs 0x12) ∧ readAll [0x2A, 0x12] = some (.bpl 0x12) ∧
    readAll [0x2B, 0x12] = some (.bmi 0x12) ∧ readAll [0x2C, 0x12] = some (.bge 0x12) ∧
    readAll [0x2D, 0x12] = some (.blt 0x12) ∧ readAll [0x2E, 0x12] = some (.bgt 0x12) ∧
    readAll [0x2F, 0x12] = some (.ble 0x12) := by decide

theorem test_decode_3x :
    readAll [0x30] = some .tsx ∧ readAll [0x31] = some .ins ∧ readAll [0x32] = some .pula ∧
    readAll [0x33] = some .pulb ∧ readAll [0x34] = some .des ∧ readAll [0x35] = some .txs ∧
    readAll [0x36] = some .psha ∧ readAll [0x37] = some .pshb ∧ readAll [0x39] = some .rts ∧
    readAll [0x3B] = some .rti ∧ readAll [0x3E] = some .wai ∧ readAll [0x3F] = some .swi := by decide

theorem test_decode_4x :
    readAll [0x40] = some .nega ∧ readAll [0x43] = some .coma ∧ readAll [0x44] = some .lsra ∧
    readAll [0x46] = some .rora ∧ readAll [0x47] = some .asra ∧ readAll [0x48] = some .asla ∧
    readAll [0x49] = some .rola ∧ readAll [0x4A] = some .deca ∧ readAll [0x4C] = some .inca ∧
    readAll [0x4D] = some .tsta ∧ readAll [0x4F] = some .clra := by decide

theorem test_decode_5x :
    readAll [0x50] = some .negb ∧ readAll [0x53] = some .comb ∧ readAll [0x54] = some .lsrb ∧
    readAll [0x56] = some .rorb ∧ readAll [0x57] = some .asrb ∧ readAll [0x58] = some .aslb ∧
    readAll [0x59] = some .rolb ∧ readAll [0x5A] = some .decb ∧ readAll [0x5C] = some .incb ∧
    readAll [0x5D] = some .tstb ∧ readAll [0x5F] = some .clrb := by decide

theorem test_decode_6x :
    readAll [0x60, 0x12] = some (.neg (.idx 0x12)) ∧ readAll [0x63, 0x12] = some (.com (.idx 0x12)) ∧
    readAll [0x64, 0x12] = some (.lsr (.idx 0x12)) ∧ readAll [0x66, 0x12] = some (.ror (.idx 0x12)) ∧
    readAll [0x67, 0x12] = some (.asr (.idx 0x12)) ∧ readAll [0x68, 0x12] = some (.asl (.idx 0x12)) ∧
    readAll [0x69, 0x12] = some (.rol (.idx 0x12)) ∧ readAll [0x6A, 0x12] = some (.dec (.idx 0x12)) ∧
    readAll [0x6C, 0x12] = some (.inc (.idx 0x12)) ∧ readAll [0x6D, 0x12] = some (.tst (.idx 0x12)) ∧
    readAll [0x6E, 0x12] = some (.jmp (.idx 0x12)) ∧ readAll [0x6F, 0x12] = some (.clr (.idx 0x12)) := by decide

theorem test_decode_7x :
    readAll [0x70, 0x12, 0x34] = some (.neg (.ext 0x1234)) ∧ readAll [0x73, 0x12, 0x34] = some (.com (.ext 0x1234)) ∧
    readAll [0x74, 0x12, 0x34] = some (.lsr (.ext 0x1234)) ∧ readAll [0x76, 0x12, 0x34] = some (.ror (.ext 0x1234)) ∧
    readAll [0x77, 0x12, 0x34] = some (.asr (.ext 0x1234)) ∧ readAll [0x78, 0x12, 0x34] = some (.asl (.ext 0x1234)) ∧
    readAll [0x79, 0x12, 0x34] = some (.rol (.ext 0x1234)) ∧ readAll [0x7A, 0x12, 0x34] = some (.dec (.ext 0x1234)) ∧
    readAll [0x7C, 0x12, 0x34] = some (.inc (.ext 0x1234)) ∧ readAll [0x7D, 0x12, 0x34] = some (.tst (.ext 0x1234)) ∧
    readAll [0x7E, 0x12, 0x34] = some (.jmp (.ext 0x1234)) ∧ readAll [0x7F, 0x12, 0x34] = some (.clr (.ext 0x1234)) := by decide

theorem test_decode_8x :
    readAll [0x80, 0x12] = some (.suba (.imm 0x12)) ∧ readAll [0x81, 0x12] = some (.cmpa (.imm 0x12)) ∧
    readAll [0x82, 0x12] = some (.sbca (.imm 0x12)) ∧ readAll [0x84, 0x12] = some (.anda (.imm 0x12)) ∧
    readAll [0x85, 0x12] = some (.bita (.imm 0x12)) ∧ readAll [0x86, 0x12] = some (.ldaa (.imm 0x12)) ∧
    readAll [0x88, 0x12] = some (.eora (.imm 0x12)) ∧ readAll [0x89, 0x12] = some (.adca (.imm 0x12)) ∧
    readAll [0x8A, 0x12] = some (.oraa (.imm 0x12)) ∧ readAll [0x8B, 0x12] = some (.adda (.imm 0x12)) ∧
    readAll [0x8C, 0x12, 0x34] = some (.cpx (.imm 0x1234)) ∧ readAll [0x8D, 0x12] = some (.bsr 0x12) ∧
    readAll [0x8E, 0x12, 0x34] = some (.lds (.imm 0x1234)) := by decide

theorem test_decode_9x :
    readAll [0x90, 0x12] = some (.suba (.mem (.dir 0x12))) ∧ readAll [0x91, 0x12] = some (.cmpa (.mem (.dir 0x12))) ∧
    readAll [0x92, 0x12] = some (.sbca (.mem (.dir 0x12))) ∧ readAll [0x94, 0x12] = some (.anda (.mem (.dir 0x12))) ∧
    readAll [0x95, 0x12] = some (.bita (.mem (.dir 0x12))) ∧ readAll [0x96, 0x12] = some (.ldaa (.mem (.dir 0x12))) ∧
    readAll [0x97, 0x12] = some (.staa (.dir 0x12)) ∧ readAll [0x98, 0x12] = some (.eora (.mem (.dir 0x12))) ∧
    readAll [0x99, 0x12] = some (.adca (.mem (.dir 0x12))) ∧ readAll [0x9A, 0x12] = some (.oraa (.mem (.dir 0x12))) ∧
    readAll [0x9B, 0x12] = some (.adda (.mem (.dir 0x12))) ∧ readAll [0x9C, 0x12] = some (.cpx (.mem (.dir 0x12))) ∧
    readAll [0x9E, 0x12] = some (.lds (.mem (.dir 0x12))) ∧ readAll [0x9F, 0x12] = some (.sts (.dir 0x12)) := by decide

theorem test_decode_Ax :
    readAll [0xA0, 0x12] = some (.suba (.mem (.idx 0x12))) ∧ readAll [0xA1, 0x12] = some (.cmpa (.mem (.idx 0x12))) ∧
    readAll [0xA2, 0x12] = some (.sbca (.mem (.idx 0x12))) ∧ readAll [0xA4, 0x12] = some (.anda (.mem (.idx 0x12))) ∧
    readAll [0xA5, 0x12] = some (.bita (.mem (.idx 0x12))) ∧ readAll [0xA6, 0x12] = some (.ldaa (.mem (.idx 0x12))) ∧
    readAll [0xA7, 0x12] = some (.staa (.idx 0x12)) ∧ readAll [0xA8, 0x12] = some (.eora (.mem (.idx 0x12))) ∧
    readAll [0xA9, 0x12] = some (.adca (.mem (.idx 0x12))) ∧ readAll [0xAA, 0x12] = some (.oraa (.mem (.idx 0x12))) ∧
    readAll [0xAB, 0x12] = some (.adda (.mem (.idx 0x12))) ∧ readAll [0xAC, 0x12] = some (.cpx (.mem (.idx 0x12))) ∧
    readAll [0xAD, 0x12] = some (.jsr (.idx 0x12)) ∧ readAll [0xAE, 0x12] = some (.lds (.mem (.idx 0x12))) ∧
    readAll [0xAF, 0x12] = some (.sts (.idx 0x12)) := by decide

theorem test_decode_Bx :
    readAll [0xB0, 0x12, 0x34] = some (.suba (.mem (.ext 0x1234))) ∧
    readAll [0xB1, 0x12, 0x34] = some (.cmpa (.mem (.ext 0x1234))) ∧
    readAll [0xB2, 0x12, 0x34] = some (.sbca (.mem (.ext 0x1234))) ∧
    readAll [0xB4, 0x12, 0x34] = some (.anda (.mem (.ext 0x1234))) ∧
    readAll [0xB5, 0x12, 0x34] = some (.bita (.mem (.ext 0x1234))) ∧
    readAll [0xB6, 0x12, 0x34] = some (.ldaa (.mem (.ext 0x1234))) ∧
    readAll [0xB7, 0x12, 0x34] = some (.staa (.ext 0x1234)) ∧
    readAll [0xB8, 0x12, 0x34] = some (.eora (.mem (.ext 0x1234))) ∧
    readAll [0xB9, 0x12, 0x34] = some (.adca (.mem (.ext 0x1234))) ∧
    readAll [0xBA, 0x12, 0x34] = some (.oraa (.mem (.ext 0x1234))) ∧
    readAll [0xBB, 0x12, 0x34] = some (.adda (.mem (.ext 0x1234))) ∧
    readAll [0xBC, 0x12, 0x34] = some (.cpx (.mem (.ext 0x1234))) ∧
    readAll [0xBD, 0x12, 0x34] = some (.jsr (.ext 0x1234)) ∧
    readAll [0xBE, 0x12, 0x34] = some (.lds (.mem (.ext 0x1234))) ∧
    readAll [0xBF, 0x12, 0x34] = some (.sts (.ext 0x1234)) := by decide

theorem test_decode_Cx :
    readAll [0xC0, 0x12] = some (.subb (.imm 0x12)) ∧ readAll [0xC1, 0x12] = some (.cmpb (.imm 0x12)) ∧
    readAll [0xC2, 0x12] = some (.sbcb (.imm 0x12)) ∧ readAll [0xC4, 0x12] = some (.andb (.imm 0x12)) ∧
    readAll [0xC5, 0x12] = some (.bitb (.imm 0x12)) ∧ readAll [0xC6, 0x12] = some (.ldab (.imm 0x12)) ∧
    readAll [0xC8, 0x12] = some (.eorb (.imm 0x12)) ∧ readAll [0xC9, 0x12] = some (.adcb (.imm 0x12)) ∧
    readAll [0xCA, 0x12] = some (.orab (.imm 0x12)) ∧ readAll [0xCB, 0x12] = some (.addb (.imm 0x12)) ∧
    readAll [0xCE, 0x12, 0x34] = some (.ldx (.imm 0x1234)) := by decide

theorem test_decode_Dx :
    readAll [0xD0, 0x12] = some (.subb (.mem (.dir 0x12))) ∧ readAll [0xD1, 0x12] = some (.cmpb (.mem (.dir 0x12))) ∧
    readAll [0xD2, 0x12] = some (.sbcb (.mem (.dir 0x12))) ∧ readAll [0xD4, 0x12] = some (.andb (.mem (.dir 0x12))) ∧
    readAll [0xD5, 0x12] = some (.bitb (.mem (.dir 0x12))) ∧ readAll [0xD6, 0x12] = some (.ldab (.mem (.dir 0x12))) ∧
    readAll [0xD7, 0x12] = some (.stab (.dir 0x12)) ∧ readAll [0xD8, 0x12] = some (.eorb (.mem (.dir 0x12))) ∧
    readAll [0xD9, 0x12] = some (.adcb (.mem (.dir 0x12))) ∧ readAll [0xDA, 0x12] = some (.orab (.mem (.dir 0x12))) ∧
    readAll [0xDB, 0x12] = some (.addb (.mem (.dir 0x12))) ∧ readAll [0xDE, 0x12] = some (.ldx (.mem (.dir 0x12))) ∧
    readAll [0xDF, 0x12] = some (.stx (.dir 0x12)) := by decide

theorem test_decode_Ex :
    readAll [0xE0, 0x12] = some (.subb (.mem (.idx 0x12))) ∧ readAll [0xE1, 0x12] = some (.cmpb (.mem (.idx 0x12))) ∧
    readAll [0xE2, 0x12] = some (.sbcb (.mem (.idx 0x12))) ∧ readAll [0xE4, 0x12] = some (.andb (.mem (.idx 0x12))) ∧
    readAll [0xE5, 0x12] = some (.bitb (.mem (.idx 0x12))) ∧ readAll [0xE6, 0x12] = some (.ldab (.mem (.idx 0x12))) ∧
    readAll [0xE7, 0x12] = some (.stab (.idx 0x12)) ∧ readAll [0xE8, 0x12] = some (.eorb (.mem (.idx 0x12))) ∧
    readAll [0xE9, 0x12] = some (.adcb (.mem (.idx 0x12))) ∧ readAll [0xEA, 0x12] = some (.orab (.mem (.idx 0x12))) ∧
    readAll [0xEB, 0x12] = some (.addb (.mem (.idx 0x12))) ∧ readAll [0xEE, 0x12] = some (.ldx (.mem (.idx 0x12))) ∧
    readAll [0xEF, 0x12] = some (.stx (.idx 0x12)) := by decide

theorem test_decode_Fx :
    readAll [0xF0, 0x12, 0x34] = some (.subb (.mem (.ext 0x1234))) ∧
    readAll [0xF1, 0x12, 0x34] = some (.cmpb (.mem (.ext 0x1234))) ∧
    readAll [0xF2, 0x12, 0x34] = some (.sbcb (.mem (.ext 0x1234))) ∧
    readAll [0xF4, 0x12, 0x34] = some (.andb (.mem (.ext 0x1234))) ∧
    readAll [0xF5, 0x12, 0x34] = some (.bitb (.mem (.ext 0x1234))) ∧
    readAll [0xF6, 0x12, 0x34] = some (.ldab (.mem (.ext 0x1234))) ∧
    readAll [0xF7, 0x12, 0x34] = some (.stab (.ext 0x1234)) ∧
    readAll [0xF8, 0x12, 0x34] = some (.eorb (.mem (.ext 0x1234))) ∧
    readAll [0xF9, 0x12, 0x34] = some (.adcb (.mem (.ext 0x1234))) ∧
    readAll [0xFA, 0x12, 0x34] = some (.orab (.mem (.ext 0x1234))) ∧
    readAll [0xFB, 0x12, 0x34] = some (.addb (.mem (.ext 0x1234))) ∧
    readAll [0xFE, 0x12, 0x34] = some (.ldx (.mem (.ext 0x1234))) ∧
    readAll [0xFF, 0x12, 0x34] = some (.stx (.ext 0x1234)) := by decide

/-- The 59 unassigned codes are one-byte instructions of their own, and the table's words start with their first byte. -/
theorem test_decode_unassigned : ∀ op ∈ unassignedCodes, readAll [op] = some (.unassigned op) := by decide

theorem test_decodeTableWord : decodeTableWord 16 0x388B = some (.adda (.imm 0x38)) ∧
    decodeTableWord 24 0x34127E = some (.jmp (.ext 0x1234)) ∧ decodeTableWord 8 0x8C = some (.cpx (.imm 0)) ∧
    decodeTableWord 8 0x00 = some (.unassigned 0x00) := by decide

/-- No byte, or too few of them, is refused by name. -/
theorem test_decode_refuses : decode [] = .error .noByte ∧ decode [0x7E, 0x12] = .error (.truncated 0x7E) ∧
    decode [0x20] = .error (.truncated 0x20) := ⟨rfl, rfl, rfl⟩

/-! ### One step of each instruction: rows of 95_test_vectors.md section 2 -/

/-- The same state under CPX_HIGH_BORROW = 1. -/
def withHighBorrow (s : State) : State := s.setParams { s.params with cpxHighBorrow := true }

theorem test_nop :
    gives (loaded [0x01] (cpu 0 0 0 0 0xFF)) ⟨0, 0, 0, 0, 0x0101, 0xFF, []⟩ ∧
    gives (loaded [0x01] ((cpu 0 0 0 0 0xC0).setPc 0xFFFF)) ⟨0, 0, 0, 0, 0, 0xC0, []⟩ := by decide

theorem test_tap :
    gives (loaded [0x06] (cpu 0xFF 0 0 0 0xC0)) ⟨0xFF, 0, 0, 0, 0x0101, 0xFF, []⟩ ∧
    gives (loaded [0x06] (cpu 0x15 0 0 0 0xC0)) ⟨0x15, 0, 0, 0, 0x0101, 0xD5, []⟩ := by decide

theorem test_tpa :
    gives (loaded [0x07] (cpu 0x55 0 0 0 0xC0)) ⟨0xC0, 0, 0, 0, 0x0101, 0xC0, []⟩ ∧
    gives (loaded [0x07] (cpu 0 0 0 0 0xE9)) ⟨0xE9, 0, 0, 0, 0x0101, 0xE9, []⟩ := by decide

theorem test_inx :
    gives (loaded [0x08] (cpu 0 0 0xFFFF 0 0xC0)) ⟨0, 0, 0, 0, 0x0101, 0xC4, []⟩ ∧
    gives (loaded [0x08] (cpu 0 0 0x00FF 0 0xC4)) ⟨0, 0, 0x0100, 0, 0x0101, 0xC0, []⟩ := by decide

theorem test_dex :
    gives (loaded [0x09] (cpu 0 0 0x0001 0 0xCB)) ⟨0, 0, 0, 0, 0x0101, 0xCF, []⟩ ∧
    gives (loaded [0x09] (cpu 0 0 0 0 0xC4)) ⟨0, 0, 0xFFFF, 0, 0x0101, 0xC0, []⟩ := by decide

theorem test_clv :
    gives (loaded [0x0A] (cpu 0 0 0 0 0xFF)) ⟨0, 0, 0, 0, 0x0101, 0xFD, []⟩ := by decide

theorem test_sev :
    gives (loaded [0x0B] (cpu 0 0 0 0 0xC0)) ⟨0, 0, 0, 0, 0x0101, 0xC2, []⟩ := by decide

theorem test_clc :
    gives (loaded [0x0C] (cpu 0 0 0 0 0xFF)) ⟨0, 0, 0, 0, 0x0101, 0xFE, []⟩ := by decide

theorem test_sec :
    gives (loaded [0x0D] (cpu 0 0 0 0 0xC0)) ⟨0, 0, 0, 0, 0x0101, 0xC1, []⟩ := by decide

theorem test_cli :
    gives (loaded [0x0E] (cpu 0 0 0 0 0xFF)) ⟨0, 0, 0, 0, 0x0101, 0xEF, []⟩ := by decide

theorem test_sei :
    gives (loaded [0x0F] (cpu 0 0 0 0 0xC0)) ⟨0, 0, 0, 0, 0x0101, 0xD0, []⟩ := by decide

theorem test_sba :
    gives (loaded [0x10] (cpu 0x50 0x60 0 0 0xC0)) ⟨0xF0, 0x60, 0, 0, 0x0101, 0xC9, []⟩ ∧
    gives (loaded [0x10] (cpu 0x80 0x01 0 0 0xC0)) ⟨0x7F, 0x01, 0, 0, 0x0101, 0xC2, []⟩ := by decide

theorem test_cba :
    gives (loaded [0x11] (cpu 0x05 0x05 0 0 0xC0)) ⟨0x05, 0x05, 0, 0, 0x0101, 0xC4, []⟩ ∧
    gives (loaded [0x11] (cpu 0x7F 0xFF 0 0 0xC0)) ⟨0x7F, 0xFF, 0, 0, 0x0101, 0xCB, []⟩ := by decide

theorem test_tab :
    gives (loaded [0x16] (cpu 0x80 0x01 0 0 0xC3)) ⟨0x80, 0x80, 0, 0, 0x0101, 0xC9, []⟩ ∧
    gives (loaded [0x16] (cpu 0 0x01 0 0 0xC0)) ⟨0, 0, 0, 0, 0x0101, 0xC4, []⟩ := by decide

theorem test_tba :
    gives (loaded [0x17] (cpu 0x80 0x7F 0 0 0xC8)) ⟨0x7F, 0x7F, 0, 0, 0x0101, 0xC0, []⟩ := by decide

theorem test_aba :
    gives (loaded [0x1B] (cpu 0x90 0x90 0 0 0xC0)) ⟨0x20, 0x90, 0, 0, 0x0101, 0xC3, []⟩ ∧
    gives (loaded [0x1B] (cpu 0x08 0x08 0 0 0xC0)) ⟨0x10, 0x08, 0, 0, 0x0101, 0xE0, []⟩ := by decide

theorem test_bra :
    gives (loaded [0x20, 0x05] (cpu 0 0 0 0 0xC0)) ⟨0, 0, 0, 0, 0x0107, 0xC0, []⟩ ∧
    gives (loaded [0x20, 0xEE] (cpu 0 0 0 0 0xC0)) ⟨0, 0, 0, 0, 0x00F0, 0xC0, []⟩ := by decide

theorem test_tsx :
    gives (loaded [0x30] (cpu 0 0 0 0x01FF 0xC0)) ⟨0, 0, 0x0200, 0x01FF, 0x0101, 0xC0, []⟩ ∧
    gives (loaded [0x30] (cpu 0 0 0 0xFFFF 0xC0)) ⟨0, 0, 0, 0xFFFF, 0x0101, 0xC0, []⟩ := by decide

theorem test_ins :
    gives (loaded [0x31] (cpu 0 0 0 0xFFFF 0xC0)) ⟨0, 0, 0, 0, 0x0101, 0xC0, []⟩ ∧
    gives (loaded [0x31] (cpu 0 0 0 0x01FD 0xC0)) ⟨0, 0, 0, 0x01FE, 0x0101, 0xC0, []⟩ := by decide

theorem test_pula :
    gives (poke [(0x01FF, 0x99)] (loaded [0x32] (cpu 0 0 0 0x01FE 0xC4))) ⟨0x99, 0, 0, 0x01FF, 0x0101, 0xC4, []⟩ := by decide

theorem test_pulb :
    gives (poke [(0, 0x77)] (loaded [0x33] (cpu 0 0 0 0xFFFF 0xC0))) ⟨0, 0x77, 0, 0, 0x0101, 0xC0, []⟩ := by decide

theorem test_des :
    gives (loaded [0x34] (cpu 0 0 0 0 0xC4)) ⟨0, 0, 0, 0xFFFF, 0x0101, 0xC4, []⟩ ∧
    gives (loaded [0x34] (cpu 0 0 0 0x0200 0xC0)) ⟨0, 0, 0, 0x01FF, 0x0101, 0xC0, []⟩ := by decide

theorem test_txs :
    gives (loaded [0x35] (cpu 0 0 0x0200 0 0xCC)) ⟨0, 0, 0x0200, 0x01FF, 0x0101, 0xCC, []⟩ ∧
    gives (loaded [0x35] (cpu 0 0 0 0 0xC0)) ⟨0, 0, 0, 0xFFFF, 0x0101, 0xC0, []⟩ := by decide

theorem test_psha :
    gives (loaded [0x36] (cpu 0x12 0 0 0x01FF 0xC9)) ⟨0x12, 0, 0, 0x01FE, 0x0101, 0xC9, [(0x01FF, 0x12)]⟩ := by decide

theorem test_pshb :
    gives (loaded [0x37] (cpu 0 0x34 0 0 0xC0)) ⟨0, 0x34, 0, 0xFFFF, 0x0101, 0xC0, [(0, 0x34)]⟩ := by decide

theorem test_rts :
    gives (poke [(0x01FE, 0x01), (0x01FF, 0x03)] (loaded [0x39] (cpu 0 0 0 0x01FD 0xC0))) ⟨0, 0, 0, 0x01FF, 0x0103, 0xC0, []⟩ := by decide

theorem test_rti :
    gives (poke [(0x01F9, 0x3F), (0x01FA, 0xBB), (0x01FB, 0xAA), (0x01FC, 0x12), (0x01FD, 0x34), (0x01FE, 0x56), (0x01FF, 0x78)] (loaded [0x3B] (cpu 0 0 0 0x01F8 0xC0))) ⟨0xAA, 0xBB, 0x1234, 0x01FF, 0x5678, 0xFF, []⟩ := by decide

theorem test_wai :
    gives (loaded [0x3E] ((cpu 0x01 0x02 0x0304 0x00FF 0xC4).setPc 0x0200)) ⟨0x01, 0x02, 0x0304, 0x00F8, 0x0201, 0xC4, [(0x00FF, 0x01), (0x00FE, 0x02), (0x00FD, 0x04), (0x00FC, 0x03), (0x00FB, 0x01), (0x00FA, 0x02), (0x00F9, 0xC4)]⟩ := by decide

theorem test_swi :
    gives (poke [(0xFFFA, 0xE0), (0xFFFB, 0)] (loaded [0x3F] ((cpu 0xAA 0xBB 0x1234 0x01FF 0xE9).setPc 0x0110))) ⟨0xAA, 0xBB, 0x1234, 0x01F8, 0xE000, 0xF9, [(0x01FF, 0x11), (0x01FE, 0x01), (0x01FD, 0x34), (0x01FC, 0x12), (0x01FB, 0xAA), (0x01FA, 0xBB), (0x01F9, 0xE9)]⟩ := by decide

theorem test_nega :
    gives (loaded [0x40] (cpu 0 0 0 0 0xC1)) ⟨0, 0, 0, 0, 0x0101, 0xC4, []⟩ ∧
    gives (loaded [0x40] (cpu 0x80 0 0 0 0xC0)) ⟨0x80, 0, 0, 0, 0x0101, 0xCB, []⟩ := by decide

theorem test_coma :
    gives (loaded [0x43] (cpu 0x55 0 0 0 0xC0)) ⟨0xAA, 0, 0, 0, 0x0101, 0xC9, []⟩ ∧
    gives (loaded [0x43] (cpu 0xFF 0 0 0 0xC0)) ⟨0, 0, 0, 0, 0x0101, 0xC5, []⟩ := by decide

theorem test_lsra :
    gives (loaded [0x44] (cpu 0x81 0 0 0 0xC0)) ⟨0x40, 0, 0, 0, 0x0101, 0xC3, []⟩ ∧
    gives (loaded [0x44] (cpu 0xFE 0 0 0 0xC1)) ⟨0x7F, 0, 0, 0, 0x0101, 0xC0, []⟩ := by decide

theorem test_rora :
    gives (loaded [0x46] (cpu 0x02 0 0 0 0xC1)) ⟨0x81, 0, 0, 0, 0x0101, 0xCA, []⟩ ∧
    gives (loaded [0x46] (cpu 0x01 0 0 0 0xC1)) ⟨0x80, 0, 0, 0, 0x0101, 0xC9, []⟩ := by decide

theorem test_asra :
    gives (loaded [0x47] (cpu 0x81 0 0 0 0xC0)) ⟨0xC0, 0, 0, 0, 0x0101, 0xC9, []⟩ ∧
    gives (loaded [0x47] (cpu 0x80 0 0 0 0xC0)) ⟨0xC0, 0, 0, 0, 0x0101, 0xCA, []⟩ := by decide

theorem test_asla :
    gives (loaded [0x48] (cpu 0x80 0 0 0 0xC0)) ⟨0, 0, 0, 0, 0x0101, 0xC7, []⟩ ∧
    gives (loaded [0x48] (cpu 0xC1 0 0 0 0xC0)) ⟨0x82, 0, 0, 0, 0x0101, 0xC9, []⟩ := by decide

theorem test_rola :
    gives (loaded [0x49] (cpu 0x80 0 0 0 0xC0)) ⟨0, 0, 0, 0, 0x0101, 0xC7, []⟩ ∧
    gives (loaded [0x49] (cpu 0x40 0 0 0 0xC1)) ⟨0x81, 0, 0, 0, 0x0101, 0xCA, []⟩ := by decide

theorem test_deca :
    gives (loaded [0x4A] (cpu 0x80 0 0 0 0xC1)) ⟨0x7F, 0, 0, 0, 0x0101, 0xC3, []⟩ ∧
    gives (loaded [0x4A] (cpu 0 0 0 0 0xC0)) ⟨0xFF, 0, 0, 0, 0x0101, 0xC8, []⟩ := by decide

theorem test_inca :
    gives (loaded [0x4C] (cpu 0x7F 0 0 0 0xC1)) ⟨0x80, 0, 0, 0, 0x0101, 0xCB, []⟩ ∧
    gives (loaded [0x4C] (cpu 0xFF 0 0 0 0xC0)) ⟨0, 0, 0, 0, 0x0101, 0xC4, []⟩ := by decide

theorem test_tsta :
    gives (loaded [0x4D] (cpu 0x80 0 0 0 0xC3)) ⟨0x80, 0, 0, 0, 0x0101, 0xC8, []⟩ := by decide

theorem test_clra :
    gives (loaded [0x4F] (cpu 0x55 0 0 0 0xFB)) ⟨0, 0, 0, 0, 0x0101, 0xF4, []⟩ := by decide

theorem test_negb :
    gives (loaded [0x50] (cpu 0 0x7F 0 0 0xC0)) ⟨0, 0x81, 0, 0, 0x0101, 0xC9, []⟩ := by decide

theorem test_comb :
    gives (loaded [0x53] (cpu 0 0 0 0 0xC0)) ⟨0, 0xFF, 0, 0, 0x0101, 0xC9, []⟩ := by decide

theorem test_rolb :
    gives (loaded [0x59] (cpu 0 0 0 0 0xC1)) ⟨0, 0x01, 0, 0, 0x0101, 0xC0, []⟩ := by decide

theorem test_incb :
    gives (loaded [0x5C] (cpu 0 0 0 0 0xC0)) ⟨0, 0x01, 0, 0, 0x0101, 0xC0, []⟩ := by decide

theorem test_tstb :
    gives (loaded [0x5D] (cpu 0 0 0 0 0xC1)) ⟨0, 0, 0, 0, 0x0101, 0xC4, []⟩ := by decide

theorem test_neg :
    gives (poke [(0x2003, 0x05)] (loaded [0x60, 0x03] (cpu 0 0 0x2000 0 0xC0))) ⟨0, 0, 0x2000, 0, 0x0102, 0xC9, [(0x2003, 0xFB)]⟩ := by decide

theorem test_com :
    gives (poke [(0x0012, 0x0F)] (loaded [0x63, 0x02] (cpu 0 0 0x0010 0 0xC0))) ⟨0, 0, 0x0010, 0, 0x0102, 0xC9, [(0x0012, 0xF0)]⟩ := by decide

theorem test_lsr :
    gives (poke [(0x0080, 0x80)] (loaded [0x64, 0x00] (cpu 0 0 0x0080 0 0xC0))) ⟨0, 0, 0x0080, 0, 0x0102, 0xC0, [(0x0080, 0x40)]⟩ := by decide

theorem test_asl :
    gives (poke [(0x0050, 0x55)] (loaded [0x78, 0x00, 0x50] (cpu 0 0 0 0 0xC0))) ⟨0, 0, 0, 0, 0x0103, 0xCA, [(0x0050, 0xAA)]⟩ := by decide

theorem test_dec :
    gives (poke [(0x0001, 0x10)] (loaded [0x6A, 0xFF] (cpu 0 0 0xFF02 0 0xC0))) ⟨0, 0, 0xFF02, 0, 0x0102, 0xC0, [(0x0001, 0x0F)]⟩ := by decide

theorem test_inc :
    gives (poke [(0x1234, 0xFE)] (loaded [0x7C, 0x12, 0x34] (cpu 0 0 0 0 0xC0))) ⟨0, 0, 0, 0, 0x0103, 0xC8, [(0x1234, 0xFF)]⟩ ∧
    gives (poke [(0x0040, 0xFF)] (loaded [0x6C, 0x00] (cpu 0 0 0x0040 0 0xC1))) ⟨0, 0, 0x0040, 0, 0x0102, 0xC5, [(0x0040, 0)]⟩ := by decide

theorem test_tst :
    gives (poke [(0x0040, 0x01)] (loaded [0x6D, 0x00] (cpu 0 0 0x0040 0 0xC3))) ⟨0, 0, 0x0040, 0, 0x0102, 0xC0, []⟩ := by decide

theorem test_jmp :
    gives (loaded [0x7E, 0x12, 0x34] (cpu 0 0 0 0 0xC0)) ⟨0, 0, 0, 0, 0x1234, 0xC0, []⟩ ∧
    gives (loaded [0x6E, 0xFF] (cpu 0 0 0xFFFF 0 0xC0)) ⟨0, 0, 0xFFFF, 0, 0x00FE, 0xC0, []⟩ := by decide

theorem test_clr :
    gives (poke [(0x0080, 0xAA)] (loaded [0x7F, 0x00, 0x80] (cpu 0 0 0 0 0xC0))) ⟨0, 0, 0, 0, 0x0103, 0xC4, [(0x0080, 0)]⟩ := by decide

theorem test_suba :
    gives (loaded [0x80, 0x01] (cpu 0 0 0 0 0xC0)) ⟨0xFF, 0, 0, 0, 0x0102, 0xC9, []⟩ ∧
    gives (loaded [0x80, 0xFF] (cpu 0x7F 0 0 0 0xC0)) ⟨0x80, 0, 0, 0, 0x0102, 0xCB, []⟩ := by decide

theorem test_cmpa :
    gives (loaded [0x81, 0x20] (cpu 0x10 0 0 0 0xC0)) ⟨0x10, 0, 0, 0, 0x0102, 0xC9, []⟩ ∧
    gives (loaded [0x81, 0x10] (cpu 0x10 0 0 0 0xC0)) ⟨0x10, 0, 0, 0, 0x0102, 0xC4, []⟩ := by decide

theorem test_sbca :
    gives (loaded [0x82, 0x00] (cpu 0 0 0 0 0xC1)) ⟨0xFF, 0, 0, 0, 0x0102, 0xC9, []⟩ ∧
    gives (loaded [0x82, 0xFF] (cpu 0 0 0 0 0xC1)) ⟨0, 0, 0, 0, 0x0102, 0xC5, []⟩ := by decide

theorem test_anda :
    gives (loaded [0x84, 0x0F] (cpu 0x5A 0 0 0 0xC3)) ⟨0x0A, 0, 0, 0, 0x0102, 0xC1, []⟩ ∧
    gives (loaded [0x84, 0xF0] (cpu 0x0F 0 0 0 0xC0)) ⟨0, 0, 0, 0, 0x0102, 0xC4, []⟩ := by decide

theorem test_bita :
    gives (loaded [0x85, 0x01] (cpu 0xFE 0 0 0 0xC3)) ⟨0xFE, 0, 0, 0, 0x0102, 0xC5, []⟩ := by decide

theorem test_ldaa :
    gives (loaded [0x86, 0x20] (cpu 0x10 0 0 0 0xC3)) ⟨0x20, 0, 0, 0, 0x0102, 0xC1, []⟩ ∧
    gives (poke [(0x1010, 0xFF)] (loaded [0xA6, 0x10] (cpu 0xBB 0 0x1000 0 0xC0))) ⟨0xFF, 0, 0x1000, 0, 0x0102, 0xC8, []⟩ := by decide

theorem test_eora :
    gives (loaded [0x88, 0xFF] (cpu 0x55 0 0 0 0xC2)) ⟨0xAA, 0, 0, 0, 0x0102, 0xC8, []⟩ ∧
    gives (loaded [0x88, 0x55] (cpu 0x55 0 0 0 0xC1)) ⟨0, 0, 0, 0, 0x0102, 0xC5, []⟩ := by decide

theorem test_adca :
    gives (loaded [0x89, 0x00] (cpu 0xFF 0 0 0 0xC1)) ⟨0, 0, 0, 0, 0x0102, 0xE5, []⟩ ∧
    gives (loaded [0x89, 0x7F] (cpu 0 0 0 0 0xC1)) ⟨0x80, 0, 0, 0, 0x0102, 0xEA, []⟩ := by decide

theorem test_oraa :
    gives (loaded [0x8A, 0x80] (cpu 0x01 0 0 0 0xC3)) ⟨0x81, 0, 0, 0, 0x0102, 0xC9, []⟩ := by decide

theorem test_adda :
    gives (loaded [0x8B, 0x38] (cpu 0x49 0 0 0 0xC0)) ⟨0x81, 0, 0, 0, 0x0102, 0xEA, []⟩ ∧
    gives (loaded [0x8B, 0x80] (cpu 0x80 0 0 0 0xC0)) ⟨0, 0, 0, 0, 0x0102, 0xC7, []⟩ := by decide

theorem test_cpx :
    gives (loaded [0x8C, 0x15, 0x20] (cpu 0 0 0x1501 0 0xC1)) ⟨0, 0, 0x1501, 0, 0x0103, 0xC1, []⟩ ∧
    gives (loaded [0x8C, 0x15, 0x20] (withHighBorrow (cpu 0 0 0x1501 0 0xC1))) ⟨0, 0, 0x1501, 0, 0x0103, 0xC9, []⟩ := by decide

theorem test_bsr :
    gives (loaded [0x8D, 0x20] (cpu 0 0 0 0x01FF 0xC0)) ⟨0, 0, 0, 0x01FD, 0x0122, 0xC0, [(0x01FF, 0x02), (0x01FE, 0x01)]⟩ ∧
    gives (loaded [0x8D, 0xFE] (cpu 0 0 0 0 0xC0)) ⟨0, 0, 0, 0xFFFE, 0x0100, 0xC0, [(0, 0x02), (0xFFFF, 0x01)]⟩ := by decide

theorem test_lds :
    gives (loaded [0x8E, 0x01, 0xFF] (cpu 0 0 0 0 0xC2)) ⟨0, 0, 0, 0x01FF, 0x0103, 0xC0, []⟩ ∧
    gives (poke [(0x2000, 0x80), (0x2001, 0)] (loaded [0xBE, 0x20, 0x00] (cpu 0 0 0 0 0xC0))) ⟨0, 0, 0, 0x8000, 0x0103, 0xC8, []⟩ := by decide

theorem test_staa :
    gives (loaded [0x97, 0x40] (cpu 0x80 0 0 0 0xC3)) ⟨0x80, 0, 0, 0, 0x0102, 0xC9, [(0x0040, 0x80)]⟩ ∧
    gives (loaded [0xA7, 0x00] (cpu 0x7F 0 0x1500 0 0xC0)) ⟨0x7F, 0, 0x1500, 0, 0x0102, 0xC0, [(0x1500, 0x7F)]⟩ := by decide

theorem test_sts :
    gives (loaded [0x9F, 0x40] (cpu 0 0 0 0x01FF 0xC0)) ⟨0, 0, 0, 0x01FF, 0x0102, 0xC0, [(0x0040, 0x01), (0x0041, 0xFF)]⟩ ∧
    gives (loaded [0xBF, 0x12, 0x34] (cpu 0 0 0 0xFFFE 0xC0)) ⟨0, 0, 0, 0xFFFE, 0x0103, 0xC8, [(0x1234, 0xFF), (0x1235, 0xFE)]⟩ := by decide

theorem test_jsr :
    gives (loaded [0xBD, 0x20, 0x00] (cpu 0 0 0 0x01FF 0xC0)) ⟨0, 0, 0, 0x01FD, 0x2000, 0xC0, [(0x01FF, 0x03), (0x01FE, 0x01)]⟩ ∧
    gives (loaded [0xAD, 0x04] (cpu 0 0 0x3000 0x01FF 0xC0)) ⟨0, 0, 0x3000, 0x01FD, 0x3004, 0xC0, [(0x01FF, 0x02), (0x01FE, 0x01)]⟩ := by decide

theorem test_cmpb :
    gives (loaded [0xC1, 0x01] (cpu 0 0x80 0 0 0xC0)) ⟨0, 0x80, 0, 0, 0x0102, 0xC2, []⟩ := by decide

theorem test_sbcb :
    gives (loaded [0xC2, 0x7F] (cpu 0 0x80 0 0 0xC1)) ⟨0, 0, 0, 0, 0x0102, 0xC6, []⟩ := by decide

theorem test_andb :
    gives (loaded [0xC4, 0x80] (cpu 0 0x80 0 0 0xC0)) ⟨0, 0x80, 0, 0, 0x0102, 0xC8, []⟩ := by decide

theorem test_bitb :
    gives (poke [(0x0020, 0xC0)] (loaded [0xD5, 0x20] (cpu 0 0x80 0 0 0xC0))) ⟨0, 0x80, 0, 0, 0x0102, 0xC8, []⟩ := by decide

theorem test_ldab :
    gives (loaded [0xC6, 0x00] (cpu 0 0x55 0 0 0xC8)) ⟨0, 0, 0, 0, 0x0102, 0xC4, []⟩ ∧
    gives (poke [(0x0195, 0x3B)] (loaded [0xE6, 0x05] (cpu 0 0 0x0190 0 0xC0))) ⟨0, 0x3B, 0x0190, 0, 0x0102, 0xC0, []⟩ := by decide

theorem test_adcb :
    gives (poke [(0x0010, 0)] (loaded [0xD9, 0x10] (cpu 0 0x0F 0 0 0xC1))) ⟨0, 0x10, 0, 0, 0x0102, 0xE0, []⟩ := by decide

theorem test_orab :
    gives (poke [(0x1200, 0)] (loaded [0xFA, 0x12, 0x00] (cpu 0 0 0 0 0xC0))) ⟨0, 0, 0, 0, 0x0103, 0xC4, []⟩ := by decide

theorem test_addb :
    gives (loaded [0xCB, 0x0F] (cpu 0 0x01 0 0 0xC0)) ⟨0, 0x10, 0, 0, 0x0102, 0xE0, []⟩ := by decide

theorem test_ldx :
    gives (loaded [0xCE, 0x15, 0x00] (cpu 0 0 0 0 0xC3)) ⟨0, 0, 0x1500, 0, 0x0103, 0xC1, []⟩ ∧
    gives (poke [(0, 0x02), (0xFFFF, 0x01)] (loaded [0xFE, 0xFF, 0xFF] (cpu 0 0 0 0 0xC0))) ⟨0, 0, 0x0102, 0, 0x0103, 0xC0, []⟩ := by decide

theorem test_stab :
    gives (loaded [0xF7, 0x20, 0x00] (cpu 0 0 0 0 0xC8)) ⟨0, 0, 0, 0, 0x0103, 0xC4, [(0x2000, 0)]⟩ := by decide

theorem test_stx :
    gives (loaded [0xDF, 0x30] (cpu 0 0 0x1234 0 0xC3)) ⟨0, 0, 0x1234, 0, 0x0102, 0xC1, [(0x0030, 0x12), (0x0031, 0x34)]⟩ ∧
    gives (loaded [0xEF, 0x00] (cpu 0 0 0x8000 0 0xC0)) ⟨0, 0, 0x8000, 0, 0x0102, 0xC8, [(0x8000, 0x80), (0x8001, 0)]⟩ := by decide
/-! ### Forms with no row there, by hand from the rule's example for the other accumulator or mode -/

theorem test_aslb : gives (loaded [0x58] (cpu 0 0x40 0 0 0xC1)) ⟨0, 0x80, 0, 0, 0x0101, 0xCA, []⟩ := by decide

theorem test_asrb : gives (loaded [0x57] (cpu 0 0x81 0 0 0xC0)) ⟨0, 0xC0, 0, 0, 0x0101, 0xC9, []⟩ := by decide

theorem test_asr : gives (poke [(0x0080, 0x01)] (loaded [0x67, 0x00] (cpu 0 0 0x0080 0 0xC0)))
    ⟨0, 0, 0x0080, 0, 0x0102, 0xC7, [(0x0080, 0)]⟩ := by decide

theorem test_lsrb : gives (loaded [0x54] (cpu 0 0x81 0 0 0xC0)) ⟨0, 0x40, 0, 0, 0x0101, 0xC3, []⟩ := by decide

theorem test_rorb : gives (loaded [0x56] (cpu 0 0x02 0 0 0xC1)) ⟨0, 0x81, 0, 0, 0x0101, 0xCA, []⟩ := by decide

theorem test_ror : gives (poke [(0x0080, 0x01)] (loaded [0x66, 0x00] (cpu 0 0 0x0080 0 0xC1)))
    ⟨0, 0, 0x0080, 0, 0x0102, 0xC9, [(0x0080, 0x80)]⟩ := by decide

theorem test_rol : gives (poke [(0x0050, 0x80)] (loaded [0x79, 0x00, 0x50] (cpu 0 0 0 0 0xC0)))
    ⟨0, 0, 0, 0, 0x0103, 0xC7, [(0x0050, 0)]⟩ := by decide

theorem test_clrb : gives (loaded [0x5F] (cpu 0 0x55 0 0 0xFB)) ⟨0, 0, 0, 0, 0x0101, 0xF4, []⟩ := by decide

theorem test_decb : gives (loaded [0x5A] (cpu 0 0x80 0 0 0xC1)) ⟨0, 0x7F, 0, 0, 0x0101, 0xC3, []⟩ := by decide

theorem test_eorb : gives (poke [(0x0020, 0x55)] (loaded [0xD8, 0x20] (cpu 0 0x55 0 0 0xC1)))
    ⟨0, 0, 0, 0, 0x0102, 0xC5, []⟩ := by decide

theorem test_subb : gives (poke [(0x0040, 0xFF)] (loaded [0xE0, 0x00] (cpu 0 0x7F 0x0040 0 0xC0)))
    ⟨0, 0x80, 0x0040, 0, 0x0102, 0xCB, []⟩ := by decide

/-- What a row on DAA shows: A, H, I, N, Z and C. V is unspecified. -/
def adjusted (a ccr : Byte) : Option (Byte × List Bool) :=
  (nextOf (step (loaded [0x19] (cpu a 0 0 0 ccr)))).map fun t => (t.a, [t.cc.h, t.cc.i, t.cc.n, t.cc.z, t.cc.c])

/-- 95_test_vectors.md section 2.1, rows 30 to 36. -/
theorem test_daa : adjusted 0x7A 0xC0 = some (0x80, [false, false, true, false, false]) ∧
    adjusted 0xB3 0xC0 = some (0x13, [false, false, false, false, true]) ∧
    adjusted 0x12 0xE0 = some (0x18, [true, false, false, false, false]) ∧
    adjusted 0x9A 0xC0 = some (0, [false, false, false, true, true]) ∧
    adjusted 0x00 0xC1 = some (0x60, [false, false, false, false, true]) ∧
    adjusted 0x99 0xC0 = some (0x99, [false, false, true, false, false]) ∧
    adjusted 0xA0 0xC0 = some (0, [false, false, false, true, true]) := by decide

/-- The values of N Z V C for which the branch `op 10` at 0100h ends at `pc`. -/
def endsAt (pc : Word) (op : Byte) : List Nat :=
  (List.range 16).filter fun k =>
    (nextOf (step (loaded [op, 0x10] (cpu 0 0 0 0 (BitVec.ofNat 8 (0xC0 + k)))))).map (fun t => t.pc) = some pc

/-! The truth table of 95_test_vectors.md section 2.5: 0112h when taken, 0102h when not. -/

theorem test_bcc : endsAt 0x0112 0x24 = [0, 2, 4, 6, 8, 10, 12, 14] ∧ endsAt 0x0102 0x24 = [1, 3, 5, 7, 9, 11, 13, 15] := by
  decide
theorem test_bcs : endsAt 0x0112 0x25 = [1, 3, 5, 7, 9, 11, 13, 15] ∧ endsAt 0x0102 0x25 = [0, 2, 4, 6, 8, 10, 12, 14] := by
  decide
theorem test_beq : endsAt 0x0112 0x27 = [4, 5, 6, 7, 12, 13, 14, 15] ∧ endsAt 0x0102 0x27 = [0, 1, 2, 3, 8, 9, 10, 11] := by
  decide
theorem test_bne : endsAt 0x0112 0x26 = [0, 1, 2, 3, 8, 9, 10, 11] ∧ endsAt 0x0102 0x26 = [4, 5, 6, 7, 12, 13, 14, 15] := by
  decide
theorem test_bmi : endsAt 0x0112 0x2B = [8, 9, 10, 11, 12, 13, 14, 15] ∧ endsAt 0x0102 0x2B = [0, 1, 2, 3, 4, 5, 6, 7] := by
  decide
theorem test_bpl : endsAt 0x0112 0x2A = [0, 1, 2, 3, 4, 5, 6, 7] ∧ endsAt 0x0102 0x2A = [8, 9, 10, 11, 12, 13, 14, 15] := by
  decide
theorem test_bvc : endsAt 0x0112 0x28 = [0, 1, 4, 5, 8, 9, 12, 13] ∧ endsAt 0x0102 0x28 = [2, 3, 6, 7, 10, 11, 14, 15] := by
  decide
theorem test_bvs : endsAt 0x0112 0x29 = [2, 3, 6, 7, 10, 11, 14, 15] ∧ endsAt 0x0102 0x29 = [0, 1, 4, 5, 8, 9, 12, 13] := by
  decide
theorem test_bhi : endsAt 0x0112 0x22 = [0, 2, 8, 10] ∧ endsAt 0x0102 0x22 = [1, 3, 4, 5, 6, 7, 9, 11, 12, 13, 14, 15] := by
  decide
theorem test_bls : endsAt 0x0112 0x23 = [1, 3, 4, 5, 6, 7, 9, 11, 12, 13, 14, 15] ∧ endsAt 0x0102 0x23 = [0, 2, 8, 10] := by
  decide
theorem test_bge : endsAt 0x0112 0x2C = [0, 1, 4, 5, 10, 11, 14, 15] ∧ endsAt 0x0102 0x2C = [2, 3, 6, 7, 8, 9, 12, 13] := by
  decide
theorem test_blt : endsAt 0x0112 0x2D = [2, 3, 6, 7, 8, 9, 12, 13] ∧ endsAt 0x0102 0x2D = [0, 1, 4, 5, 10, 11, 14, 15] := by
  decide
theorem test_bgt : endsAt 0x0112 0x2E = [0, 1, 10, 11] ∧ endsAt 0x0102 0x2E = [2, 3, 4, 5, 6, 7, 8, 9, 12, 13, 14, 15] := by
  decide
theorem test_ble : endsAt 0x0112 0x2F = [2, 3, 4, 5, 6, 7, 8, 9, 12, 13, 14, 15] ∧ endsAt 0x0102 0x2F = [0, 1, 10, 11] := by
  decide

/-- 95_test_vectors.md section 2.7, row 7: an instruction across the top of memory. -/
theorem test_fetch_wraps : gives (poke [(0x0000, 0x34), (0x1234, 0x77)] (loaded [0xB6, 0x12] ((cpu 0 0 0 0 0xC0).setPc 0xFFFE)))
    ⟨0x77, 0, 0, 0, 0x0001, 0xC0, []⟩ := by decide

/-- 95_test_vectors.md section 2.7, row 9: one fetch of two bytes, then one read and one write, 7 cycles (R120). -/
theorem test_accesses : (nextOf (step (poke [(0x0040, 0xFF)] (loaded [0x6C, 0x00] (cpu 0 0 0x0040 0 0xC1))))).map
    (fun t => (t.bus, t.cycles)) = some ([.read 0x0100 0x6C, .read 0x0101 0x00, .read 0x0040 0xFF, .write 0x0040 0x00], 7) := by
  decide

/-! ### Events: 95_test_vectors.md section 2.8 -/

/-- The start of E2, with this CCR and the three vectors 0100h, 0400h and 0300h in memory. -/
def atEvent (ccr : Byte) : State :=
  poke [(0xFFFE, 0x01), (0xFFFC, 0x04), (0xFFF8, 0x03)] (loaded [0x01] ((cpu 0x11 0x22 0x3344 0x01FF ccr).setPc 0x0101))

/-- The frame of E2 with this CCR. -/
def frameOf (ccr : Byte) : List (Word × Byte) :=
  [(0x01FF, 0x01), (0x01FE, 0x01), (0x01FD, 0x44), (0x01FC, 0x33), (0x01FB, 0x11), (0x01FA, 0x22), (0x01F9, ccr)]

/-- E1: what the spec says of RESET. -/
theorem test_reset : (nextOf (step ((((atEvent 0xC1).setResetActive true).setWaiting true).setNmiPending true))).map
    (fun t => (t.pc, [t.cc.i, t.waiting, t.nmiPending, t.irqHoldoff], writesOf t.bus)) =
      some (0x0100, [true, false, false, false], []) := by decide

/-- Running the reset sequence from the reset state leaves it, the recorded reads apart. -/
theorem test_reset_again : (resetSequence State.reset).setBus [] = State.reset := by decide

/-- E2. -/
theorem test_irq : gives ((atEvent 0xC1).setIrqLow true) ⟨0x11, 0x22, 0x3344, 0x01F8, 0x0300, 0xD1, frameOf 0xC1⟩ := by
  decide

/-- E3. -/
theorem test_irq_masked : gives ((atEvent 0xD1).setIrqLow true) ⟨0x11, 0x22, 0x3344, 0x01FF, 0x0102, 0xD1, []⟩ := by decide

/-- E4. -/
theorem test_nmi : gives ((atEvent 0xD1).setNmiPending true) ⟨0x11, 0x22, 0x3344, 0x01F8, 0x0400, 0xD1, frameOf 0xD1⟩ ∧
    (nextOf (step ((atEvent 0xD1).setNmiPending true))).map (fun t => (t.nmiPending, t.cycles)) = some (false, 12) := by decide

/-- E5. -/
theorem test_nmi_first : gives (((atEvent 0xC1).setIrqLow true).setNmiPending true)
    ⟨0x11, 0x22, 0x3344, 0x01F8, 0x0400, 0xD1, frameOf 0xC1⟩ := by decide

/-- E6. -/
theorem test_wake : gives ((((atEvent 0xC0).setIrqLow true).setWaiting true).setSp 0x00F8)
    ⟨0x11, 0x22, 0x3344, 0x00F8, 0x0300, 0xD0, []⟩ ∧
    (nextOf (step (((atEvent 0xC0).setIrqLow true).setWaiting true))).map (fun t => (t.waiting, t.cycles)) =
      some (false, 4) := by decide

/-- E7. -/
theorem test_wait_masked : nextOf (step (((atEvent 0xD0).setIrqLow true).setWaiting true)) =
    some (((atEvent 0xD0).setIrqLow true).setWaiting true) := by decide

/-- E8. -/
theorem test_unassigned : stopOf (step ((cpu 0 0 0 0 0xC0).setPc 0x0101)) = some (.unassignedOpcode 0x00 0x0101) := by decide

/-- E9. -/
theorem test_stack_wraps : (nextOf (step (((atEvent 0xC1).setIrqLow true).setSp 0x0002))).map
    (fun t => (t.sp, (writesOf t.bus).map (·.1))) =
      some (0xFFFB, [0x0002, 0x0001, 0x0000, 0xFFFF, 0xFFFE, 0xFFFD, 0xFFFC]) := by decide

/-- 60_exceptions.md R281: HALT stops the machine between instructions; RESET comes before it (R270). -/
theorem test_halt : nextOf (step ((atEvent 0xC1).setHalted true)) = some ((atEvent 0xC1).setHalted true) ∧
    (nextOf (step (((atEvent 0xC1).setHalted true).setResetActive true))).map (·.pc) = some 0x0100 := by decide

/-- The start of E2 under I_CLEAR_DELAY = 1, IRQ low, at CLI. -/
def atCli : State :=
  loaded [0x0E] (((atEvent 0xD1).setIrqLow true).setParams { defaultParams with iClearDelay := true })

/-- 46_ccr.md R251: CLI holds IRQ off at the next boundary (program P7), and that boundary ends the holdoff. -/
theorem test_holdoff : (nextOf (step atCli)).map (fun t => (t.cc.i, t.irqHoldoff, boundary t)) =
    some (false, true, .instruction) ∧
    (nextOf (step ((atEvent 0xC1).setIrqHoldoff true))).map (·.irqHoldoff) = some false := by decide

/-- 70_reset_and_hazards.md R311: the two stops the host may ask for, at an SWI at 0110h; at an unassigned code its fault
is the end, whatever the host asked for. -/
theorem test_stops :
    stopOf (step (loaded [0x3F] (((cpu 0 0 0 0 0xC0).setPc 0x0110).setParams { defaultParams with stopOnSwi := true }))) =
      some (.stopOnSwi 0x0110) ∧
    stopOf (step (loaded [0x3F] (((cpu 0 0 0 0 0xC0).setPc 0x0110).setParams { defaultParams with stopAddress := some 0x0110 }))) =
      some (.stopAt 0x0110) ∧
    stopOf (step (((cpu 0 0 0 0 0xC0).setPc 0x0110).setParams { defaultParams with stopAddress := some 0x0110 })) =
      some (.unassignedOpcode 0x00 0x0110) := by decide

/-- R311: SEI has been executed and WAI is next. IRQ alone never wakes the machine, so the run is stuck after WAI; with an
NMI to come it is not, and the handler's 00h ends it. -/
theorem test_runSchedule :
    (match runSchedule [[], [.irqLine true], [.haltLine true]] (loaded [0x3E] (cpu 0 0 0 0x01FF 0xD0)) with
      | .stuckWaiting t => some (t.pc, t.sp, t.irqLow)
      | _ => none) = some (0x0101, 0x01F8, false) ∧
    (match runSchedule [[], [.irqLine true], [.nmiRequest], []] (loaded [0x3E] (cpu 0 0 0 0x01FF 0xD0)) with
      | .stopped e t => some (e, t.pc, t.sp)
      | _ => none) = some (.unassignedOpcode 0x00 0x0000, 0x0000, 0x01F8) := by decide

/-- A map with ROM from E000h, a device at 8000h and nothing at 9000h; RAM elsewhere. -/
def mixedMap : State :=
  (cpu 0x55 0 0x8000 0x01FF 0xC0).setParams { defaultParams with
    memoryMap := [⟨0xE000, 0xFFFF, .rom⟩, ⟨0x8000, 0x8003, .device⟩, ⟨0x9000, 0x9000, .empty⟩] }

/-- 20_memory.md R57, R67: a write to ROM is made and discarded; a device's answer and an empty address read free. -/
theorem test_map : (nextOf (step (loaded [0xB7, 0xE0, 0x00] mixedMap))).map (fun t => (t.peek 0xE000, writesOf t.bus)) =
    some (0x00, [(0xE000, 0x55)]) ∧
    (nextOf (step (loaded [0xA6, 0x00] mixedMap))).map (fun t => (t.a, t.draws)) = some (Config.freeByte 0, 1) ∧
    (nextOf (step (loaded [0xB6, 0x90, 0x00] mixedMap))).map (fun t => (t.a, t.draws)) = some (Config.freeByte 0, 1) :=
  ⟨by decide, rfl, rfl⟩

/-- A program word placed for the next fetch runs in the very next step. -/
theorem test_withFetchWord : (nextOf (step (State.reset.withFetchWord 16 0x388B))).map (fun t => (t.a, t.pc)) =
    some (0x38, 0x0002) := by decide

/-- 20_memory.md R66, 60_exceptions.md R268: a write by another master, and two requests merged into one. -/
theorem test_hostMoves : (applyHostMove (.dmaWrite 0x1234 0x77) (cpu 0 0 0 0 0xC0)).peek 0x1234 = 0x77 ∧
    (applyHostMove (.dmaWrite 0xE000 0x77) mixedMap).peek 0xE000 = 0x00 ∧
    (applyHostMoves [.nmiRequest, .nmiRequest] (cpu 0 0 0 0 0xC0)).nmiPending = true := by decide

/-! ### Witnesses: for each statement with hypotheses, a state and operands that meet them together -/

/-- ADDA #38h at 0100h. -/
def atAdda : State := loaded [0x8B, 0x38] (cpu 0x49 0 0 0 0xC0)

/-- LDAA 1234h across the top of memory, SWI ending the run when it is fetched. -/
def atTop : State :=
  poke [(0x0000, 0x34), (0x1234, 0x77)]
    (loaded [0xB6, 0x12] (((cpu 0 0 0 0 0xC0).setPc 0xFFFE).setParams { defaultParams with stopOnSwi := true }))

theorem witness_StepRunsDecodedInstruction :
    AtFetch atAdda ∧ atAdda.params.stopAddress ≠ some atAdda.pc ∧
      (atAdda.params.stopOnSwi = false ∨ Instr.adda (.imm 0x38) ≠ .swi) ∧ (∀ op, Instr.adda (.imm 0x38) ≠ .unassigned op) ∧
      (∀ k, k < (Instr.adda (.imm 0x38)).length → Held atAdda (atAdda.pc + BitVec.ofNat 16 k)) ∧
      decode [atAdda.peek atAdda.pc, atAdda.peek (atAdda.pc + 1), atAdda.peek (atAdda.pc + 2)] =
        .ok (.adda (.imm 0x38), [0x00]) :=
  ⟨by unfold AtFetch; decide, by decide, by decide, fun _ h => (nomatch h), by unfold Held; decide, rfl⟩

/-- At the top of memory, with the other disjunct on SWI. -/
theorem witness_StepRunsDecodedInstruction_top :
    AtFetch atTop ∧ atTop.params.stopAddress ≠ some atTop.pc ∧
      (atTop.params.stopOnSwi = false ∨ Instr.ldaa (.mem (.ext 0x1234)) ≠ .swi) ∧
      (∀ op, Instr.ldaa (.mem (.ext 0x1234)) ≠ .unassigned op) ∧
      (∀ k, k < (Instr.ldaa (.mem (.ext 0x1234))).length → Held atTop (atTop.pc + BitVec.ofNat 16 k)) ∧
      decode [atTop.peek atTop.pc, atTop.peek (atTop.pc + 1), atTop.peek (atTop.pc + 2)] =
        .ok (.ldaa (.mem (.ext 0x1234)), []) :=
  ⟨by unfold AtFetch; decide, by decide, by decide, fun _ h => (nomatch h), by unfold Held; decide, rfl⟩

theorem witness_DecodeOfEncode : (Instr.jmp (.ext 0x1234)).wf = true ∧ (Instr.unassigned 0xFD).wf = true := by decide

theorem witness_EncodeOfDecode : decode [0x7E, 0x12, 0x34, 0x01] = .ok (.jmp (.ext 0x1234), [0x01]) := rfl

theorem witness_FirstByteAloneGivesTheLength : (0x7E : Byte) ∉ unassignedCodes ∧ (0x01 : Byte) ∉ unassignedCodes ∧
    (0x8D : Byte) ∉ unassignedCodes ∧ decode (0x7E :: [0x12, 0x34, 0x01]) = .ok (.jmp (.ext 0x1234), [0x01]) ∧
    decode (0x01 :: []) = .ok (.nop, []) ∧ decode (0x8D :: [0xFE]) = .ok (.bsr 0xFE, []) :=
  ⟨by decide, by decide, by decide, rfl, rfl, rfl⟩

theorem witness_UnassignedBytesAreTheListed : decodeOp 0x00 0x12 0x34 = .unassigned 0x00 ∧
    decodeOp 0xFD 0x12 0x34 = .unassigned 0xFD ∧ (0x00 : Byte) ∈ unassignedCodes ∧ (0xFD : Byte) ∈ unassignedCodes := by decide

theorem witness_ResetStepLoadsTheVector : ((atEvent 0xC1).setResetActive true).resetActive = true ∧
    Held ((atEvent 0xC1).setResetActive true) 0xFFFE ∧ Held ((atEvent 0xC1).setResetActive true) 0xFFFF :=
  ⟨rfl, by unfold Held; decide, by unfold Held; decide⟩

/-- A wait with IRQ masked. -/
def masked : State := ((atEvent 0xD0).setIrqLow true).setWaiting true

theorem witness_StillStepsChangeNothing :
    (((atEvent 0xC1).setHalted true).resetActive = false ∧ ((atEvent 0xC1).setHalted true).halted = true) ∧
      masked.resetActive = false ∧ masked.halted = false ∧ masked.nmiPending = false ∧
      (masked.irqLow = false ∨ masked.cc.i = true ∨ (masked.params.iClearDelay = true ∧ masked.irqHoldoff = true)) ∧
      masked.waiting = true := by decide

/-- A wait held off by I_CLEAR_DELAY alone. -/
def heldOff : State :=
  ((((atEvent 0xC0).setIrqLow true).setWaiting true).setIrqHoldoff true).setParams { defaultParams with iClearDelay := true }

theorem witness_StillStepsChangeNothing_holdoff :
    heldOff.resetActive = false ∧ heldOff.halted = false ∧ heldOff.nmiPending = false ∧
      (heldOff.irqLow = false ∨ heldOff.cc.i = true ∨ (heldOff.params.iClearDelay = true ∧ heldOff.irqHoldoff = true)) ∧
      heldOff.waiting = true := by decide

/-- An NMI request, IRQ low and masked, in a running and in a waiting machine. -/
def atNmi (waiting : Bool) : State := (((atEvent 0xD1).setIrqLow true).setNmiPending true).setWaiting waiting

theorem witness_NmiIsTakenWhateverTheMask : ∀ w, (atNmi w).resetActive = false ∧ (atNmi w).halted = false ∧
    (atNmi w).nmiPending = true ∧ (atNmi w).waiting = w ∧ Held (atNmi w) 0xFFFC ∧ Held (atNmi w) 0xFFFD := by
  unfold Held
  decide

/-- IRQ low and not masked, in a running and in a waiting machine. -/
def atIrq (waiting : Bool) : State := ((atEvent 0xC1).setIrqLow true).setWaiting waiting

theorem witness_IrqIsTakenWhenUnmasked : ∀ w, (atIrq w).resetActive = false ∧ (atIrq w).halted = false ∧
    (atIrq w).nmiPending = false ∧ (atIrq w).irqLow = true ∧ (atIrq w).cc.i = false ∧
    ((atIrq w).params.iClearDelay = false ∨ (atIrq w).irqHoldoff = false) ∧ (atIrq w).waiting = w ∧
    Held (atIrq w) 0xFFF8 ∧ Held (atIrq w) 0xFFF9 := by
  unfold Held
  decide

/-- The frame of an entry in which the bytes of RAM take what is pushed and ROM bytes stay: SP at the map's ROM. -/
theorem witness_Enters_clauses : (atIrq false).kindAt 0x01FF = .ram ∧ (mixedMap.setSp 0xE000).kindAt 0xE000 ≠ .ram ∧
    ((frameBytes (atIrq false)).all fun e => e.1 != 0x01F8) = true := by decide

theorem witness_StuckWaitingStaysStuck : StuckWaiting [] masked ∧
    StuckWaiting [[.irqLine true, .dmaWrite 0x1234 0x77], [.haltLine true]] masked ∧
    StuckWaiting [[.irqLine false, .resetLine false], []] ((atEvent 0xC0).setWaiting true) := by
  unfold StuckWaiting
  decide

/-- SWI at 0110h with the stop on SWI asked for, and STOP_ADDRESS at it. -/
def stopping (addr : Option Word) : State :=
  loaded [0x3F] (((cpu 0 0 0 0 0xC0).setPc 0x0110).setParams { defaultParams with stopOnSwi := true, stopAddress := addr })

theorem witness_RunEndsWhereTheHostAsks :
    (AtFetch (stopping (some 0x0110)) ∧ (stopping (some 0x0110)).params.stopAddress = some (stopping (some 0x0110)).pc ∧
      (read8 (stopping (some 0x0110)).pc (stopping (some 0x0110))).1 ∉ unassignedCodes) ∧
      (AtFetch (stopping none) ∧ (stopping none).params.stopAddress ≠ some (stopping none).pc ∧
        (stopping none).params.stopOnSwi = true ∧ (read8 (stopping none).pc (stopping none)).1 = 0x3F) ∧
      stopOf (hostStep [.irqLine false] (stopping none)) = some (.stopOnSwi 0x0110) := by
  unfold AtFetch
  decide

theorem witness_UnassignedCodeIsTheOnlyFault :
    (∀ op, Instr.nop ≠ .unassigned op) ∧ AtFetch (cpu 0 0 0 0 0xC0) ∧
      (read8 (cpu 0 0 0 0 0xC0).pc (cpu 0 0 0 0 0xC0)).1 ∈ unassignedCodes :=
  ⟨fun _ h => (nomatch h), by unfold AtFetch; decide, by decide⟩

theorem witness_ReadGivesTheByteHeldOrAFreeOne :
    Held mixedMap 0x0000 ∧ Held mixedMap 0xE000 ∧ Held mixedMap 0xFFFF ∧ Held mixedMap 0x7FFF ∧ Held mixedMap 0x8004 ∧
      ¬ Held mixedMap 0x8000 ∧ ¬ Held mixedMap 0x8003 ∧ ¬ Held mixedMap 0x9000 := by
  unfold Held
  decide

theorem witness_WriteChangesOneByteOfRam :
    mixedMap.kindAt 0xDFFF = .ram ∧ mixedMap.kindAt 0xE000 ≠ .ram ∧ (0xDFFF : Word) ≠ 0xE000 := by decide

theorem witness_WordsAreBigEndian :
    (Held (cpu 0 0 0 0 0xC0) 0xFFFF ∧ Held (cpu 0 0 0 0 0xC0) (0xFFFF + 1)) ∧ (cpu 0 0 0 0 0xC0).kindAt 0xFFFF = .ram := by
  unfold Held
  decide

theorem witness_PushAndPullMoveOneByte : (cpu 0 0 0 0 0xC0).kindAt (cpu 0 0 0 0 0xC0).sp = .ram ∧
    (mixedMap.setSp 0xFFFF).kindAt 0xFFFF ≠ .ram := by decide

theorem witness_DecimalAdjustGivesTheDecimalSum : IsBcd 0x99 ∧ IsBcd 0x00 ∧ ¬ IsBcd 0x9A ∧ ¬ IsBcd 0xA9 := by
  unfold IsBcd
  decide

theorem witness_BranchesAfterCompareOrderTheOperands :
    (∃ t m, exec (.cmpa m) (cpu 0x7F 0 0 0 0xC0) = .next t ∧ (0x7F : Byte) = (cpu 0x7F 0 0 0 0xC0).a ∧
      (0x80 : Byte) = (readSrc8 m (cpu 0x7F 0 0 0 0xC0)).1) ∧
    (∃ t m, exec (.cmpb m) (cpu 0 0x80 0 0 0xC0) = .next t ∧ (0x80 : Byte) = (cpu 0 0x80 0 0 0xC0).b ∧
      (0x00 : Byte) = (readSrc8 m (cpu 0 0x80 0 0 0xC0)).1) ∧
    ∃ t, exec .cba (cpu 0x7F 0xFF 0 0 0xC0) = .next t ∧ (0x7F : Byte) = (cpu 0x7F 0xFF 0 0 0xC0).a ∧
      (0xFF : Byte) = (cpu 0x7F 0xFF 0 0 0xC0).b :=
  ⟨⟨_, .imm 0x80, rfl, rfl, rfl⟩, ⟨_, .mem (.dir 0x10), rfl, rfl, by decide⟩, ⟨_, rfl, rfl, rfl⟩⟩

theorem witness_ReturnsPullTheStack : (∀ k, k < 7 → Held (cpu 0 0 0 0xFFFC 0xC0) (0xFFFD + BitVec.ofNat 16 k)) ∧
    ∀ k, k < 2 → Held mixedMap (0xFFFF + BitVec.ofNat 16 k) := by
  unfold Held
  decide

theorem witness_SoftwareInterruptStacksAndJumps : Held atAdda atAdda.params.swiVector ∧
    Held atAdda (atAdda.params.swiVector + 1) := by
  unfold Held
  decide

theorem witness_RtiUndoesSwi : ∀ e ∈ frameBytes (atEvent 0xC1), (atEvent 0xC1).kindAt e.1 = .ram := fun _ _ => rfl

theorem witness_RtsUndoesTheCall : atAdda.kindAt atAdda.sp = .ram ∧ atAdda.kindAt (atAdda.sp - 1) = .ram ∧
    ∃ t, exec (.jsr (.ext 0x2000)) atAdda = .next t ∨ exec (.bsr 0xFE) atAdda = .next t :=
  ⟨by decide, by decide, _, .inl rfl⟩

theorem witness_OneFlagInstructions : ∃ t, exec .sei atAdda = .next t := ⟨_, rfl⟩

/-- IRQ low before CLI, with the delay and without it. -/
theorem witness_ClearInterruptMask : (∃ t, exec .cli atCli = .next t) ∧ atCli.irqHoldoff = false ∧ atCli.irqLow = true ∧
    atCli.params.iClearDelay = true ∧ atCli.cc.i = true ∧ ((atEvent 0xD1).setIrqLow true).params.iClearDelay = false ∧
    ((atEvent 0xD1).setIrqLow true).irqHoldoff = false := ⟨⟨_, rfl⟩, by decide⟩

theorem witness_StepKeepsTheInvariant : MachineInv atCli ∧ (nextOf (step atCli)).isSome = true := by
  unfold MachineInv
  decide

/-- A byte of RAM that a step changes: STAA 40h of 80h over 00h. -/
theorem witness_StepWritesOnlyRecordedBytesOfRam :
    (nextOf (step (loaded [0x97, 0x40] (cpu 0x80 0 0 0 0xC0)))).map (fun t => decide (t.peek 0x0040 ≠ 0x00)) = some true := by
  decide

theorem witness_FewInstructionsWriteTheMaskAndHalfCarry :
    (∃ t, exec .cli (cpu 0 0 0 0 0xD0) = .next t ∧ (cpu 0 0 0 0 0xD0).cc.i = true ∧ t.cc.i = false) ∧
      (∃ t, exec .sei (cpu 0 0 0 0 0xC0) = .next t ∧ (cpu 0 0 0 0 0xC0).cc.i = false ∧ t.cc.i = true) ∧
      ∃ t, exec .aba (cpu 8 8 0 0 0xC0) = .next t ∧ t.cc.h ≠ (cpu 8 8 0 0 0xC0).cc.h :=
  ⟨⟨_, rfl, by decide⟩, ⟨_, rfl, by decide⟩, ⟨_, rfl, by decide⟩⟩

theorem witness_HostMovesLeaveTheRegisters : mixedMap.kindAt 0xE000 ≠ .ram ∧ mixedMap.kindAt 0x1234 = .ram ∧
    (0x1235 : Word) ≠ 0x1234 := by decide

/-- The clauses on a device operand: the operand of a completion statement may be a free value. -/
theorem witness_AccTakes_device : ¬ Held mixedMap (effAddr (.idx 0x00) mixedMap) := by
  unfold Held
  decide

end Sys2Proof.Tests
end

section
/-! The first byte alone decides the length of an instruction (30_encoding.md R82): the operand bytes do not enter the
format, the map gives each assigned byte its length, and the decoder takes that many bytes. -/

namespace Sys2Proof.Proofs.OpcodeLength

/-- The high digit of the first byte picks the column of the map and the low digit the row (R84): the operand bytes fill
the operand of the cell and choose nothing. -/
theorem decodeOp_format (op b1 b2 : Byte) : (decodeOp op b1 b2).format = (decodeOp op 0 0).format := by
  unfold decodeOp
  split
  -- columns 0, 1, 3, 4 and 5: no cell has an operand byte
  case h_1 | h_2 | h_4 | h_5 | h_6 => rfl
  -- the others, cell by cell
  all_goals
    simp only [column2, column6, column7, column8, column9, columnA, columnB, columnC, columnD, columnE, columnF]
    split <;> rfl

theorem decodeOp_length (op b1 b2 : Byte) : (decodeOp op b1 b2).length = opLength op :=
  congrArg Format.length (decodeOp_format op b1 b2)

/-- The lengths of the assigned cells of the map of R84, by the formats of R81: a table of 256 bytes, read whole. -/
theorem opLength_of_assigned : ∀ op : Byte, op ∉ unassignedCodes → opLength op =
    if op.toNat / 16 ∈ [7, 0xB, 0xF] ∨ op ∈ [0x8C, 0x8E, 0xCE] then 3
    else if op.toNat / 16 ∈ [2, 6, 8, 9, 0xA, 0xC, 0xD, 0xE] then 2
    else 1 := by decide

/-- The decoder takes the bytes that the first one asks for, be it assigned or not. -/
theorem length_of_decode_cons {op : Byte} {more rest : List Byte} {i : Instr}
    (h : decode (op :: more) = .ok (i, rest)) : (op :: more).length = opLength op + rest.length := by
  simp only [decode] at h
  split at h
  case h_4 => cases h
  all_goals
    cases h
    simp only [List.length_cons, *]
    omega

/-- Settles O5: the operand bytes do not enter the format, so the length is that of the map's cell, and the decoder
takes that many bytes. -/
theorem firstByteAloneGivesTheLength : Obligations.FirstByteAloneGivesTheLength := by
  unfold Obligations.FirstByteAloneGivesTheLength
  exact ⟨fun op b1 b2 h => ⟨decodeOp_length op b1 b2, opLength_of_assigned op h⟩,
    fun _ _ _ _ _ h => length_of_decode_cons h⟩

end Sys2Proof.Proofs.OpcodeLength
end

section
/-! NOP (45_branch_jump.md R228): nothing beyond the fetch, and one cell of the opcode map. -/

namespace Sys2Proof.Proofs.NoOperation

/-- NOP stands in one cell of the map of R84: in column 0, row 1; no other column has it. -/
theorem digits_of_decodeOp_eq_nop {op b1 b2 : Byte} (h : decodeOp op b1 b2 = .nop) :
    op.toNat / 16 = 0 ∧ op.toNat % 16 = 1 := by
  unfold decodeOp at h
  split at h
  case h_1 hcolumn =>
    simp only [column0] at h
    split at h
    case h_1 hrow => exact ⟨hcolumn, hrow⟩
    all_goals cases h
  all_goals
    simp only [column1, column2, column3, column4, column5, column6, column7, column8, column9, columnA, columnB,
      columnC, columnD, columnE, columnF] at h
    split at h <;> cases h

theorem decodeOp_eq_nop_iff (op b1 b2 : Byte) : decodeOp op b1 b2 = .nop ↔ op = 0x01 := by
  constructor
  · intro h
    obtain ⟨hcolumn, hrow⟩ := digits_of_decodeOp_eq_nop h
    have hop : op.toNat = 1 := by omega
    exact BitVec.eq_of_toNat_eq hop
  · rintro rfl
    rfl

/-- Settles O52: NOP's meaning is the state it is given, and the digits of its one cell in the map make the byte 01h. -/
theorem noOperationOnlyAdvances : Obligations.NoOperationOnlyAdvances := by
  unfold Obligations.NoOperationOnlyAdvances
  exact ⟨fun _ => rfl, ⟨rfl, rfl⟩, decodeOp_eq_nop_iff, fun _ _ => rfl⟩

end Sys2Proof.Proofs.NoOperation
end

section
/-! Decoder and encoder are inverse to each other (30_encoding.md R81 to R86): the cells of the opcode map, form of operand
by form, read one way give the decoding of an encoding, and read whole give the encoding of what a byte decodes to. -/

namespace Sys2Proof.Proofs.Codec

open Sys2Proof.Machine Sys2Proof.Proofs.OpcodeLength

/-! ### The decoder by the length that the first byte asks for -/

theorem decode_one {op : Byte} {rest : List Byte} (h : opLength op = 1) :
    decode (op :: rest) = .ok (decodeOp op 0 0, rest) := by simp [decode, h]

theorem decode_two {op b1 : Byte} {rest : List Byte} (h : opLength op = 2) :
    decode (op :: b1 :: rest) = .ok (decodeOp op b1 0, rest) := by simp [decode, h]

theorem decode_three {op b1 b2 : Byte} {rest : List Byte} (h : opLength op = 3) :
    decode (op :: b1 :: b2 :: rest) = .ok (decodeOp op b1 b2, rest) := by simp [decode, h]

/-- Bytes that decode are a cell of the map, its operand bytes filled in, with the rest after it. -/
theorem decode_eq_ok {bytes rest : List Byte} {i : Instr} (h : decode bytes = .ok (i, rest)) :
    ∃ op b1 b2, i = decodeOp op b1 b2 ∧ bytes = [op, b1, b2].take (opLength op) ++ rest := by
  unfold decode at h
  split at h
  next => cases h
  next op more =>
    split at h
    next hn => cases h; exact ⟨op, 0, 0, rfl, by simp [hn]⟩
    next b1 more hn => cases h; exact ⟨op, b1, 0, rfl, by simp [hn]⟩
    next b1 b2 more hn => cases h; exact ⟨op, b1, b2, rfl, by simp [hn]⟩
    next => cases h

/-! ### Decoding an encoding -/

/-- The cells of the map that hold the indexed and the extended form of an instruction. -/
def CellsAddrX (f : AddrX → Instr) (idx ext : Byte) : Prop :=
  (opLength idx = 2 ∧ ∀ o, decodeOp idx o 0 = f (.idx o)) ∧
    opLength ext = 3 ∧ ∀ h l, decodeOp ext h l = f (.ext (wordOf h l))

/-- The cells that hold the direct, the indexed and the extended form. -/
def CellsAddr (f : Addr → Instr) (dir idx ext : Byte) : Prop :=
  (opLength dir = 2 ∧ ∀ a, decodeOp dir a 0 = f (.dir a)) ∧ (opLength idx = 2 ∧ ∀ o, decodeOp idx o 0 = f (.idx o)) ∧
    opLength ext = 3 ∧ ∀ h l, decodeOp ext h l = f (.ext (wordOf h l))

/-- The cells that hold the four forms of an 8-bit operand. -/
def CellsSrc8 (f : Src8 → Instr) (imm dir idx ext : Byte) : Prop :=
  (opLength imm = 2 ∧ ∀ v, decodeOp imm v 0 = f (.imm v)) ∧ CellsAddr (fun m => f (.mem m)) dir idx ext

/-- The cells that hold the four forms of a 16-bit operand. -/
def CellsSrc16 (f : Src16 → Instr) (imm dir idx ext : Byte) : Prop :=
  (opLength imm = 3 ∧ ∀ h l, decodeOp imm h l = f (.imm (wordOf h l))) ∧ CellsAddr (fun m => f (.mem m)) dir idx ext

/-- One operand byte: the direct, indexed, 8-bit immediate and relative formats (R81). -/
theorem decode_operandByte {f : Byte → Instr} {op : Byte} (h : opLength op = 2 ∧ ∀ v, decodeOp op v 0 = f v) (v : Byte)
    (rest : List Byte) : decode ([op, v] ++ rest) = .ok (f v, rest) :=
  h.2 v ▸ decode_two h.1

/-- A 16-bit operand, high byte first: the extended and 16-bit immediate formats (R81). -/
theorem decode_operandWord {f : Word → Instr} {op : Byte}
    (h : opLength op = 3 ∧ ∀ h l, decodeOp op h l = f (wordOf h l)) (w : Word) (rest : List Byte) :
    decode ([op, hi8 w, lo8 w] ++ rest) = .ok (f w, rest) := by
  have hw : decodeOp op (hi8 w) (lo8 w) = f w := by rw [h.2, wordOf_hi8_lo8]
  exact hw ▸ decode_three h.1

theorem decode_encodeAddrX {f : AddrX → Instr} {idx ext : Byte} (h : CellsAddrX f idx ext) (m : AddrX)
    (rest : List Byte) : decode (encodeAddrX idx ext m ++ rest) = .ok (f m, rest) := by
  obtain ⟨hidx, hext⟩ := h
  cases m with
  | idx o => exact decode_operandByte (f := fun o => f (.idx o)) hidx o rest
  | ext a => exact decode_operandWord (f := fun a => f (.ext a)) hext a rest

theorem decode_encodeAddr {f : Addr → Instr} {dir idx ext : Byte} (h : CellsAddr f dir idx ext) (m : Addr)
    (rest : List Byte) : decode (encodeAddr dir idx ext m ++ rest) = .ok (f m, rest) := by
  obtain ⟨hdir, hidx, hext⟩ := h
  cases m with
  | dir a => exact decode_operandByte (f := fun a => f (.dir a)) hdir a rest
  | idx o => exact decode_operandByte (f := fun o => f (.idx o)) hidx o rest
  | ext a => exact decode_operandWord (f := fun a => f (.ext a)) hext a rest

theorem decode_encodeSrc8 {f : Src8 → Instr} {imm dir idx ext : Byte} (h : CellsSrc8 f imm dir idx ext) (m : Src8)
    (rest : List Byte) : decode (encodeSrc8 imm dir idx ext m ++ rest) = .ok (f m, rest) := by
  obtain ⟨himm, hmem⟩ := h
  cases m with
  | imm v => exact decode_operandByte (f := fun v => f (.imm v)) himm v rest
  | mem m => exact decode_encodeAddr hmem m rest

theorem decode_encodeSrc16 {f : Src16 → Instr} {imm dir idx ext : Byte} (h : CellsSrc16 f imm dir idx ext) (m : Src16)
    (rest : List Byte) : decode (encodeSrc16 imm dir idx ext m ++ rest) = .ok (f m, rest) := by
  obtain ⟨himm, hmem⟩ := h
  cases m with
  | imm v => exact decode_operandWord (f := fun v => f (.imm v)) himm v rest
  | mem m => exact decode_encodeAddr hmem m rest

/-! ### The unassigned cells -/

/-- The 59 cells marked * in the map of R84, whatever bytes follow. -/
theorem decodeOp_of_mem {op : Byte} (b1 b2 : Byte) (h : op ∈ unassignedCodes) : decodeOp op b1 b2 = .unassigned op := by
  simp only [unassignedCodes] at h
  fin_cases h <;> rfl

theorem decodeOp_eq_unassigned_iff (op b1 b2 : Byte) : decodeOp op b1 b2 = .unassigned op ↔ op ∈ unassignedCodes := by
  refine ⟨fun h => ?_, decodeOp_of_mem b1 b2⟩
  by_contra hop
  have := decodeOp_assigned b1 b2 hop
  simp [h, isUnassigned] at this

theorem opLength_of_mem {op : Byte} (h : op ∈ unassignedCodes) : opLength op = 1 := by
  rw [opLength, decodeOp_of_mem 0 0 h]
  rfl

theorem wf_of_not_isUnassigned {i : Instr} (h : isUnassigned i = false) : i.wf = true := by
  cases i
  case unassigned op => cases h
  all_goals rfl

/-- What a cell of the map gives is well-formed: it calls no assigned byte unassigned. -/
theorem decodeOp_wf (op b1 b2 : Byte) : (decodeOp op b1 b2).wf = true := by
  by_cases hop : op ∈ unassignedCodes
  · rw [decodeOp_of_mem b1 b2 hop]
    simpa [Instr.wf] using hop
  · exact wf_of_not_isUnassigned (decodeOp_assigned b1 b2 hop)

/-! ### Encoding a decoding -/

/-- Each of the 256 cells of the map of R84 encodes to its own byte and the operand bytes of its format. -/
theorem encode_decodeOp (op b1 b2 : Byte) : encode (decodeOp op b1 b2) = [op, b1, b2].take (opLength op) := by
  have cells : ∀ n : Nat, n < 256 → encode (decodeOp (BitVec.ofNat 8 n) b1 b2) =
      [BitVec.ofNat 8 n, b1, b2].take (opLength (BitVec.ofNat 8 n)) := by
    intro n hn
    interval_cases n
    all_goals
      conv => lhs; arg 1; whnf
      simp only [encode, encodeAddrX, encodeAddr, encodeSrc8, encodeSrc16, hi8_wordOf, lo8_wordOf]
      rfl
  simpa using cells op.toNat op.isLt

/-- A byte that decodes to an unassigned code decodes to its own. -/
theorem eq_of_decodeOp_eq_unassigned {op op' b1 b2 : Byte} (h : decodeOp op b1 b2 = .unassigned op') : op' = op := by
  have he := encode_decodeOp op b1 b2
  rw [← decodeOp_length op b1 b2, h] at he
  exact List.head_eq_of_cons_eq he

/-! ### The obligations -/

/-- Settles O3: instruction by instruction, the opcodes that the encoder gives its forms are cells of the map that hold
those forms. -/
theorem decodeOfEncode : Obligations.DecodeOfEncode := by
  unfold Obligations.DecodeOfEncode
  intro i rest hwf
  cases i
  case unassigned op =>
    have hop : op ∈ unassignedCodes := by simpa [Instr.wf] using hwf
    have hone := decode_one (rest := rest) (opLength_of_mem hop)
    rwa [decodeOp_of_mem 0 0 hop] at hone
  case neg m | com m | lsr m | ror m | asr m | asl m | rol m | dec m | inc m | tst m | jmp m | clr m | jsr m =>
    exact decode_encodeAddrX ⟨⟨rfl, fun _ => rfl⟩, rfl, fun _ _ => rfl⟩ m rest
  case staa m | sts m | stab m | stx m =>
    exact decode_encodeAddr ⟨⟨rfl, fun _ => rfl⟩, ⟨rfl, fun _ => rfl⟩, rfl, fun _ _ => rfl⟩ m rest
  case suba m | cmpa m | sbca m | anda m | bita m | ldaa m | eora m | adca m | oraa m | adda m | subb m | cmpb m | sbcb m
      | andb m | bitb m | ldab m | eorb m | adcb m | orab m | addb m =>
    exact decode_encodeSrc8
      ⟨⟨rfl, fun _ => rfl⟩, ⟨rfl, fun _ => rfl⟩, ⟨rfl, fun _ => rfl⟩, rfl, fun _ _ => rfl⟩ m rest
  case cpx m | lds m | ldx m =>
    exact decode_encodeSrc16
      ⟨⟨rfl, fun _ _ => rfl⟩, ⟨rfl, fun _ => rfl⟩, ⟨rfl, fun _ => rfl⟩, rfl, fun _ _ => rfl⟩ m rest
  case bra rel | bhi rel | bls rel | bcc rel | bcs rel | bne rel | beq rel | bvc rel | bvs rel | bpl rel | bmi rel
      | bge rel | blt rel | bgt rel | ble rel | bsr rel =>
    exact decode_operandByte ⟨rfl, fun _ => rfl⟩ rel rest
  -- the instructions of one byte
  all_goals exact decode_one rfl

/-- Settles O4: the decoder takes a cell of the map and its operand bytes, and the cell encodes to them. -/
theorem encodeOfDecode : Obligations.EncodeOfDecode := by
  unfold Obligations.EncodeOfDecode
  intro bytes i rest h
  obtain ⟨op, b1, b2, rfl, rfl⟩ := decode_eq_ok h
  exact ⟨decodeOp_wf op b1 b2, by rw [encode_decodeOp]⟩

/-- Settles O6: the cells marked * are the 59 listed, and such a cell encodes to its own byte. -/
theorem unassignedBytesAreTheListed : Obligations.UnassignedBytesAreTheListed := by
  unfold Obligations.UnassignedBytesAreTheListed
  refine ⟨rfl, fun op b1 b2 => ⟨decodeOp_eq_unassigned_iff op b1 b2, fun _ => eq_of_decodeOp_eq_unassigned⟩,
    fun op more hop => ⟨opLength_of_mem hop, ?_⟩⟩
  rw [decode_one (opLength_of_mem hop), decodeOp_of_mem 0 0 hop]

/-- Settles O2: each word is a cell of the map with its operand bytes. -/
theorem writtenOutWordsDecode : Obligations.WrittenOutWordsDecode := by
  unfold Obligations.WrittenOutWordsDecode
  exact ⟨decode_two rfl, decode_two rfl, decode_three rfl, decode_two rfl, decode_three rfl, decode_two rfl,
    decode_one rfl, decode_one rfl, decode_one rfl, decode_two rfl, decode_three rfl, decode_one rfl⟩

end Sys2Proof.Proofs.Codec
end

section
/-! What every part of a step keeps (20_memory.md R57, R65, R67; 60_exceptions.md R285; 10_state.md R34): parameters and
inputs stay, memory stays canonical, a byte that changes is RAM and its write is on the record, the holdoff needs
I_CLEAR_DELAY. Said once of reads, writes and register updates, and carried by composition to every instruction and step. -/

namespace Sys2Proof.Proofs.Effects

open Sys2Proof.Machine Sys2Proof.Safety Sys2Proof.Proofs.OpcodeLength

/-- `t` comes from `s` by at most `n` accesses and any number of register updates. -/
structure Effect (n : Nat) (s t : State) : Prop where
  params : t.params = s.params
  halted : t.halted = s.halted
  irqLow : t.irqLow = s.irqLow
  resetActive : t.resetActive = s.resetActive
  wf : Memory.wf s.mem = true → Memory.wf t.mem = true
  holdoff : t.irqHoldoff = true → s.irqHoldoff = true ∨ s.params.iClearDelay = true
  record : ∃ l, t.bus = s.bus ++ l ∧ l.length ≤ n ∧
    ∀ c, t.peek c ≠ s.peek c → s.kindAt c = .ram ∧ BusAccess.write c (t.peek c) ∈ l

namespace Effect

theorem refl (s : State) : Effect 0 s s :=
  ⟨rfl, rfl, rfl, rfl, id, .inl, [], by simp⟩

theorem mono {n m : Nat} {s t : State} (h : Effect n s t) (hnm : n ≤ m) : Effect m s t := by
  obtain ⟨l, hbus, hl, hpeek⟩ := h.record
  exact { h with record := ⟨l, hbus, hl.trans hnm, hpeek⟩ }

/-- One part after another: the last write of a byte is the one whose value it holds. -/
theorem trans {n m : Nat} {s t u : State} (h : Effect n s t) (h' : Effect m t u) : Effect (n + m) s u := by
  obtain ⟨l, hbus, hl, hpeek⟩ := h.record
  obtain ⟨l', hbus', hl', hpeek'⟩ := h'.record
  have hk : ∀ c, t.kindAt c = s.kindAt c := fun c => by simp only [State.kindAt, h.params]
  refine ⟨h'.params.trans h.params, h'.halted.trans h.halted, h'.irqLow.trans h.irqLow,
    h'.resetActive.trans h.resetActive, h'.wf ∘ h.wf, fun hu => ?_, l ++ l', ?_, ?_, fun c hc => ?_⟩
  · rcases h'.holdoff hu with ht | hd
    · exact h.holdoff ht
    · exact .inr (h.params ▸ hd)
  · rw [hbus', hbus, List.append_assoc]
  · rw [List.length_append]
    omega
  · by_cases hcu : u.peek c = t.peek c
    · rw [hcu] at hc ⊢
      obtain ⟨hram, hmem⟩ := hpeek c hc
      exact ⟨hram, List.mem_append_left _ hmem⟩
    · obtain ⟨hram, hmem⟩ := hpeek' c hcu
      exact ⟨hk c ▸ hram, List.mem_append_right _ hmem⟩

/-! ### Register updates -/

section
variable {n : Nat} {s t : State} (h : Effect n s t)
include h

theorem setA (v : Byte) : Effect n s (t.setA v) := { h with }
theorem setB (v : Byte) : Effect n s (t.setB v) := { h with }
theorem setX (v : Word) : Effect n s (t.setX v) := { h with }
theorem setSp (v : Word) : Effect n s (t.setSp v) := { h with }
theorem setPc (v : Word) : Effect n s (t.setPc v) := { h with }
theorem setCc (v : Flags) : Effect n s (t.setCc v) := { h with }
theorem setWaiting (v : Bool) : Effect n s (t.setWaiting v) := { h with }
theorem setNmiPending (v : Bool) : Effect n s (t.setNmiPending v) := { h with }
theorem setCycles (v : Nat) : Effect n s (t.setCycles v) := { h with }
theorem setDraws (v : Nat) : Effect n s (t.setDraws v) := { h with }

theorem setAcc (r : Acc) (v : Byte) : Effect n s (t.setAcc r v) := by
  cases r
  · exact h.setA v
  · exact h.setB v

theorem endHoldoff : Effect n s (endHoldoff t) := { h with holdoff := fun hf => absurd hf Bool.false_ne_true }

/-- CLI and TAP set the holdoff only where I_CLEAR_DELAY is 1. -/
theorem writeFlagsHoldoff (f : Flags) : Effect n s (writeFlagsHoldoff f t) := by
  unfold Machine.writeFlagsHoldoff
  split
  · next hd => exact { h with holdoff := fun _ => .inr (h.params ▸ hd.1) }
  · exact h.setCc f

theorem branchIf (cond : Bool) (rel : Byte) : Effect n s (branchIf cond rel t) := by
  cases cond
  · exact h
  · exact h.setPc _

/-! ### Accesses -/

theorem read8 (a : Word) : Effect (n + 1) s (read8 a t).2 :=
  h.trans
    { params := by simp, halted := by simp, irqLow := by simp, resetActive := by simp
      wf := by simp
      holdoff := fun ht => .inl (by simpa using ht)
      record := ⟨_, read8_bus a t, by simp, by simp⟩ }

theorem write8 (a : Word) (v : Byte) : Effect (n + 1) s (write8 a v t) :=
  h.trans
    { params := by simp, halted := by simp, irqLow := by simp, resetActive := by simp
      wf := write8_wf
      holdoff := fun ht => .inl (by simpa using ht)
      record := by
        refine ⟨_, write8_bus a v t, by simp, fun c hc => ?_⟩
        rw [write8_peek] at hc ⊢
        split at hc
        · next hca =>
          obtain ⟨rfl, hram⟩ := hca
          exact ⟨hram, by simp [hram]⟩
        · exact absurd rfl hc }

theorem read16 (a : Word) : Effect (n + 2) s (read16 a t).2 := (h.read8 a).read8 (a + 1)

theorem write16 (a v : Word) : Effect (n + 2) s (write16 a v t) := (h.write8 a _).write8 (a + 1) _

theorem push8 (v : Byte) : Effect (n + 1) s (push8 v t) := (h.write8 _ v).setSp _

theorem pull8 : Effect (n + 1) s (pull8 t).2 := (h.setSp _).read8 _

theorem pullAcc (r : Acc) : Effect (n + 1) s (pullAcc r t) := h.pull8.setAcc r _

theorem push16 (v : Word) : Effect (n + 2) s (push16 v t) := (h.push8 _).push8 _

theorem pull16 : Effect (n + 2) s (pull16 t).2 := h.pull8.pull8

theorem readSrc8 (m : Src8) : Effect (n + 1) s (readSrc8 m t).2 := by
  cases m with
  | imm v => exact h.mono (Nat.le_succ n)
  | mem m => exact h.read8 _

theorem readSrc16 (m : Src16) : Effect (n + 2) s (readSrc16 m t).2 := by
  cases m with
  | imm v => exact h.mono (Nat.le_add_right n 2)
  | mem m => exact h.read16 _

/-! ### Entries and returns -/

theorem stackAll : Effect (n + 7) s (stackAll t) := ((((h.push16 _).push16 _).push8 _).push8 _).push8 _

theorem enterThrough (vector : Word) : Effect (n + 2) s (enterThrough vector t) := ((h.setCc _).read16 vector).setPc _

theorem takeInterrupt (vector : Word) : Effect (n + 9) s (takeInterrupt vector t) := by
  unfold Machine.takeInterrupt interruptEntry
  split
  · exact (((h.setWaiting false).enterThrough vector).setCycles _).mono (by omega)
  · exact (h.stackAll.enterThrough vector).setCycles _

theorem returnFromInterrupt : Effect (n + 7) s (returnFromInterrupt t) :=
  ((((((h.pull8.setCc _).pull8.setB _).pull8.setA _).pull16.setX _).pull16).setPc _)

theorem resetSequence : Effect (n + 2) s (resetSequence t) :=
  ((((h.setCc _).setWaiting false).setNmiPending false).endHoldoff.read16 resetVector).setPc _

end

/-! ### Instructions -/

/-- An instruction has at most three bytes. -/
theorem length_le (i : Instr) : i.length ≤ 3 := by
  unfold Instr.length
  cases i.format <;> decide

/-- Every assigned instruction answers a next state. None makes more than nine accesses, and SWI, which makes so many,
has one byte. -/
theorem exec_completes (i : Instr) (s : State) (hi : ∀ op, i ≠ .unassigned op) :
    Completes i s (Effect (10 - i.length) s) := by
  have hlen := length_le i
  have hs := refl s
  cases i
  case unassigned op => exact absurd rfl (hi op)
  case adda m | adca m | suba m | sbca m | anda m | eora m | oraa m | ldaa m | addb m | adcb m | subb m | sbcb m | andb m
      | eorb m | orab m | ldab m =>
    exact ⟨_, rfl, (((hs.readSrc8 m).setAcc _ _).setCc _).mono (by omega)⟩
  case cmpa m | cmpb m | bita m | bitb m => exact ⟨_, rfl, ((hs.readSrc8 m).setCc _).mono (by omega)⟩
  case cpx m => exact ⟨_, rfl, ((hs.readSrc16 m).setCc _).mono (by omega)⟩
  case ldx m => exact ⟨_, rfl, (((hs.readSrc16 m).setX _).setCc _).mono (by omega)⟩
  case lds m => exact ⟨_, rfl, (((hs.readSrc16 m).setSp _).setCc _).mono (by omega)⟩
  case neg m | com m | lsr m | ror m | asr m | asl m | rol m | dec m | inc m =>
    exact ⟨_, rfl, (((hs.read8 _).write8 _ _).setCc _).mono (by omega)⟩
  case tst m => exact ⟨_, rfl, ((hs.read8 _).setCc _).mono (by omega)⟩
  case clr m | staa m | stab m => exact ⟨_, rfl, ((hs.write8 _ _).setCc _).mono (by omega)⟩
  case stx m | sts m => exact ⟨_, rfl, ((hs.write16 _ _).setCc _).mono (by omega)⟩
  case nega | coma | lsra | rora | asra | asla | rola | deca | inca | clra | negb | comb | lsrb | rorb | asrb | aslb | rolb
      | decb | incb | clrb =>
    exact ⟨_, rfl, ((hs.setAcc _ _).setCc _).mono (by omega)⟩
  case aba | sba | tba => exact ⟨_, rfl, ((hs.setA _).setCc _).mono (by omega)⟩
  case tab => exact ⟨_, rfl, ((hs.setB _).setCc _).mono (by omega)⟩
  case daa => exact ⟨_, rfl, (((hs.setDraws _).setA _).setCc _).mono (by omega)⟩
  case tsta | tstb | cba | clc | clv | sec | sei | sev => exact ⟨_, rfl, (hs.setCc _).mono (by omega)⟩
  case cli | tap => exact ⟨_, rfl, (hs.writeFlagsHoldoff _).mono (by omega)⟩
  case tpa => exact ⟨_, rfl, (hs.setA _).mono (by omega)⟩
  case inx | dex => exact ⟨_, rfl, ((hs.setX _).setCc _).mono (by omega)⟩
  case tsx => exact ⟨_, rfl, (hs.setX _).mono (by omega)⟩
  case ins | des | txs => exact ⟨_, rfl, (hs.setSp _).mono (by omega)⟩
  case psha | pshb => exact ⟨_, rfl, (hs.push8 _).mono (by omega)⟩
  case pula | pulb => exact ⟨_, rfl, (hs.pullAcc _).mono (by omega)⟩
  case bsr rel => exact ⟨_, rfl, ((hs.push16 _).setPc _).mono (by omega)⟩
  case jsr m => exact ⟨_, rfl, ((hs.push16 _).setPc _).mono (by omega)⟩
  case jmp m => exact ⟨_, rfl, (hs.setPc _).mono (by omega)⟩
  case nop => exact ⟨_, rfl, hs.mono (by omega)⟩
  case rts => exact ⟨_, rfl, (hs.pull16.setPc _).mono (by omega)⟩
  case rti => exact ⟨_, rfl, hs.returnFromInterrupt.mono (by omega)⟩
  case swi => exact ⟨_, rfl, (hs.stackAll.enterThrough _).mono (by decide)⟩
  case wai => exact ⟨_, rfl, (hs.stackAll.setWaiting true).mono (by omega)⟩
  -- the fifteen branches
  all_goals exact ⟨_, rfl, (hs.branchIf _ _).mono (by omega)⟩

/-- What an instruction that answers a next state did. -/
theorem of_exec {i : Instr} {s t : State} (h : exec i s = .next t) : Effect (10 - i.length) s t := by
  have hi : ∀ op, i ≠ .unassigned op := by
    rintro op rfl
    cases h
  obtain ⟨u, hu, he⟩ := exec_completes i s hi
  rw [h] at hu
  cases hu
  exact he

/-! ### Fetch and step -/

theorem fetchOperand {n : Nat} {s t : State} (h : Effect n s t) (wanted : Bool) (a : Word) :
    Effect (n + wanted.toNat) s (fetchOperand wanted a t).2 := by
  cases wanted
  · exact h
  · exact h.read8 a

theorem opLength_pos (op : Byte) : 1 ≤ opLength op := by
  unfold opLength Instr.length
  cases (decodeOp op 0 0).format <;> decide

/-- A fetch reads at most as many bytes as the instruction has. -/
theorem fetch (s : State) : Effect (fetch s).1.length s (fetch s).2 := by
  unfold Machine.fetch
  dsimp only
  split
  · exact (refl s).mono (Nat.zero_le _)
  · rw [decodeOp_length]
    have hpos := opLength_pos (Machine.read8 s.pc s).1
    refine ((((((refl s).read8 _).fetchOperand _ _).fetchOperand _ _).setPc _).setCycles _).mono ?_
    rcases (by omega : opLength (Machine.read8 s.pc s).1 = 1 ∨ opLength (Machine.read8 s.pc s).1 = 2 ∨
      3 ≤ opLength (Machine.read8 s.pc s).1) with h | h | h
    · simp [h]
    · simp [h]
    · simp [h, (by omega : 2 ≤ opLength (Machine.read8 s.pc s).1)]

/-- What a step that answers a next state did after its record of accesses was begun. -/
theorem of_step {s t : State} (h : step s = .next t) : Effect 10 (beginStep s) t := by
  have hs := refl (beginStep s)
  rcases step_next h with ⟨-, rfl⟩ | ⟨-, rfl⟩ | ⟨-, rfl⟩ | ⟨-, rfl⟩ | ⟨-, rfl⟩ | ⟨-, hexec⟩
  · exact hs.resetSequence.mono (by decide)
  · exact hs.mono (by decide)
  · exact ((hs.endHoldoff.setNmiPending false).takeInterrupt _).mono (by decide)
  · exact (hs.endHoldoff.takeInterrupt _).mono (by decide)
  · exact hs.endHoldoff.mono (by decide)
  · have hlen := length_le (Machine.fetch (Machine.endHoldoff (beginStep s))).1
    exact ((hs.endHoldoff.trans (fetch _)).trans (of_exec hexec)).mono (by omega)

end Effect

/-! ### The obligations -/

/-- Settles O57: memory and holdoff are two of the things that every part of a step keeps. -/
theorem stepKeepsTheInvariant : Obligations.StepKeepsTheInvariant := by
  unfold Obligations.StepKeepsTheInvariant
  rintro s t ⟨hwf, hholdoff⟩ hstep
  have he := Effect.of_step hstep
  refine ⟨he.wf hwf, fun ht => ?_⟩
  rw [he.params]
  exact (he.holdoff ht).elim hholdoff id

/-- Settles O58: the record of a step is that of its parts, from an empty one. -/
theorem stepWritesOnlyRecordedBytesOfRam : Obligations.StepWritesOnlyRecordedBytesOfRam := by
  unfold Obligations.StepWritesOnlyRecordedBytesOfRam
  intro s t hstep
  have he := Effect.of_step hstep
  obtain ⟨l, hbus, hlen, hpeek⟩ := he.record
  obtain rfl : t.bus = l := hbus
  exact ⟨hpeek, hlen, he.params, he.halted, he.irqLow, he.resetActive⟩

/-- Settles O56: memory is empty at reset and the holdoff clear. -/
theorem resetKeepsTheInvariant : Obligations.ResetKeepsTheInvariant := by
  unfold Obligations.ResetKeepsTheInvariant
  exact ⟨rfl, fun h => absurd h Bool.false_ne_true⟩

end Sys2Proof.Proofs.Effects
end

section
/-! What a boundary does (60_exceptions.md R264 to R273, R276, R281; 70_reset_and_hazards.md R300): the reset sequence, the
two kinds of still step, the entries. -/

namespace Sys2Proof.Proofs.Boundaries

open Sys2Proof.Machine Sys2Proof.Safety

/-! ### The step at each boundary -/

section
variable {s : State}

theorem step_reset (h : s.resetActive = true) : step s = .next (resetSequence (beginStep s)) := by
  simp [step, boundary, h]

theorem step_halted (hr : s.resetActive = false) (hh : s.halted = true) : step s = .next (beginStep s) := by
  simp [step, boundary, hr, hh]

theorem step_nmi (hr : s.resetActive = false) (hh : s.halted = false) (hn : s.nmiPending = true) :
    step s = .next (acceptNmi (beginStep s)) := by
  simp [step, boundary, hr, hh, hn]

theorem step_irq (hr : s.resetActive = false) (hh : s.halted = false) (hn : s.nmiPending = false)
    (hi : irqAccepted s = true) : step s = .next (acceptIrq (beginStep s)) := by
  simp [step, boundary, hr, hh, hn, hi]

theorem step_wait (hr : s.resetActive = false) (hh : s.halted = false) (hn : s.nmiPending = false)
    (hi : irqAccepted s = false) (hw : s.waiting = true) : step s = .next (endHoldoff (beginStep s)) := by
  simp [step, boundary, hr, hh, hn, hi, hw]

theorem irqAccepted_eq_false_iff : irqAccepted s = false ↔
    s.irqLow = false ∨ s.cc.i = true ∨ (s.params.iClearDelay = true ∧ s.irqHoldoff = true) := by
  cases hl : s.irqLow <;> cases hi : s.cc.i <;> simp [irqAccepted, hl, hi]

theorem irqAccepted_iff : irqAccepted s = true ↔
    s.irqLow = true ∧ s.cc.i = false ∧ (s.params.iClearDelay = false ∨ s.irqHoldoff = false) := by
  simp [irqAccepted, and_assoc]

end

/-! ### Entries -/

/-- A vector fetch gives the same in states that agree in memory, the map and the draws. -/
theorem vectorReads_congr {s t : State} (v : Word) (hm : s.mem = t.mem) (hp : s.params = t.params)
    (hd : s.draws = t.draws) : vectorReads v s = vectorReads v t := by
  simp only [vectorReads, (read16_congr v hm hp hd).1]

/-- The entry from `u`, which is the state at the boundary with its record begun, its holdoff ended and perhaps its NMI
latch cleared. -/
theorem takeInterrupt_enters {s u : State} (vector : Word)
    (hu : u = { s with bus := [], irqHoldoff := false, nmiPending := u.nmiPending }) :
    Enters vector s (takeInterrupt vector u) := by
  generalize u.nmiPending = latch at hu
  subst hu
  set u : State := { s with bus := [], irqHoldoff := false, nmiPending := latch } with hu
  cases hw : s.waiting with
  | true =>
    have hr := (read16_congr (s := u) (t := s) vector rfl rfl rfl).1
    have hv : vectorReads vector u = vectorReads vector s := vectorReads_congr vector rfl rfl rfl
    rw [takeInterrupt, interruptEntry_waiting vector (show u.waiting = true from hw), entryCycles,
      if_pos (show u.waiting = true from hw), hr, hv]
    exact ⟨rfl, rfl, rfl, rfl, rfl, rfl, rfl, rfl, rfl, rfl, fun h => absurd (hw.symm.trans h) (by decide),
      fun _ => ⟨rfl, fun _ => rfl, rfl, rfl, rfl⟩, fun h h' => read16_held h h'⟩
  | false =>
    have hm : (stackAll u).mem = (stackAll s).mem := stackAll_mem_congr rfl rfl rfl rfl rfl rfl rfl rfl
    have hr := (read16_congr (s := stackAll u) (t := stackAll s) vector hm (by simp [hu]) (by simp [hu])).1
    have hv : vectorReads vector (stackAll u) = vectorReads vector (stackAll s) :=
      vectorReads_congr vector hm (by simp [hu]) (by simp [hu])
    rw [takeInterrupt, interruptEntry_running vector (show u.waiting = false from hw), entryCycles,
      if_neg (show ¬ u.waiting = true by simp [hu, hw]), hr, hv, hm]
    exact ⟨rfl, rfl, rfl, rfl, hw, rfl, rfl, rfl, rfl, rfl,
      fun _ => ⟨rfl, storesBytes_congr (stackAll_stores s) (by simp only [State.setCycles_mem]), rfl, rfl, rfl⟩,
      fun h => absurd (hw.symm.trans h) (by decide),
      fun h h' => by
        simpa [State.peek] using
          read16_held (s := stackAll s) (by simpa [Held] using h) (by simpa [Held] using h')⟩

@[simp] theorem takeInterrupt_nmiPending (vector : Word) (s : State) :
    (takeInterrupt vector s).nmiPending = s.nmiPending := by
  unfold takeInterrupt interruptEntry
  split <;> simp [enterThrough]

/-! ### The obligations -/

/-- Settles O10: NMI is examined before the mask, and the entry is the one of R264 from the state with the latch clear. -/
theorem nmiIsTakenWhateverTheMask : Obligations.NmiIsTakenWhateverTheMask := by
  unfold Obligations.NmiIsTakenWhateverTheMask
  intro s hr hh hn
  exact ⟨_, step_nmi hr hh hn, takeInterrupt_enters nmiVector rfl, takeInterrupt_nmiPending _ _⟩

/-- Settles O11: with I clear and no holdoff the low IRQ is accepted, and the entry is the one of R264. -/
theorem irqIsTakenWhenUnmasked : Obligations.IrqIsTakenWhenUnmasked := by
  unfold Obligations.IrqIsTakenWhenUnmasked
  intro s hr hh hn hlow hi hdelay
  exact ⟨_, step_irq hr hh hn (irqAccepted_iff.2 ⟨hlow, hi, hdelay⟩), takeInterrupt_enters irqVector rfl,
    (takeInterrupt_nmiPending _ _).trans hn⟩

/-- Settles O8: the reset sequence as one record update, the vector read in the state before. -/
theorem resetStepLoadsTheVector : Obligations.ResetStepLoadsTheVector := by
  unfold Obligations.ResetStepLoadsTheVector
  intro s h
  have hr := (read16_congr (s := beginStep s) (t := s) resetVector rfl rfl rfl).1
  have hv : vectorReads resetVector (beginStep s) = vectorReads resetVector s := vectorReads_congr _ rfl rfl rfl
  refine ⟨_, step_reset h, ?_⟩
  rw [resetSequence_eq, hr, hv]
  exact ⟨rfl, rfl, rfl, rfl, rfl, fun h0 h1 => read16_held h0 h1, rfl, rfl, rfl, rfl, fun _ => rfl, rfl, rfl, rfl, h, rfl,
    rfl⟩

/-- Settles O9: the halted and the waiting boundary. -/
theorem stillStepsChangeNothing : Obligations.StillStepsChangeNothing := by
  unfold Obligations.StillStepsChangeNothing
  exact ⟨fun _ hr hh => step_halted hr hh,
    fun _ hr hh hn hi hw => step_wait hr hh hn (irqAccepted_eq_false_iff.2 hi) hw⟩

/-- Settles O7: the fields of the reset state, memory being empty and the map too. -/
theorem resetStateAsTheSpecGives : Obligations.ResetStateAsTheSpecGives := by
  unfold Obligations.ResetStateAsTheSpecGives
  exact ⟨rfl, rfl, rfl, rfl, rfl, rfl, rfl, rfl, rfl, rfl, rfl, fun _ => rfl⟩

end Sys2Proof.Proofs.Boundaries
end

section
/-! The host's moves and the run under a schedule of them (60_exceptions.md R266, R273, R285; 70_reset_and_hazards.md R311):
what a move leaves, when a wait is stuck, where a run ends, and the step that runs a decoded instruction. -/

namespace Sys2Proof.Proofs.Runs

open Sys2Proof.Machine Sys2Proof.Safety Sys2Proof.Proofs.OpcodeLength Sys2Proof.Proofs.Codec Sys2Proof.Proofs.Effects
  Sys2Proof.Proofs.Boundaries

/-! ### Moves of the host -/

/-- `t` is `s` but for the inputs, the NMI latch and memory. -/
def DiffersAsHost (s t : State) : Prop :=
  t = { s with resetActive := t.resetActive, irqLow := t.irqLow, halted := t.halted, nmiPending := t.nmiPending,
               mem := t.mem }

theorem DiffersAsHost.trans {s t u : State} (h : DiffersAsHost s t) (h' : DiffersAsHost t u) : DiffersAsHost s u := by
  unfold DiffersAsHost at *
  rw [h', h]

theorem applyHostMove_differs (mv : HostMove) (s : State) : DiffersAsHost s (applyHostMove mv s) := by
  cases mv with
  | dmaWrite a v =>
    simp only [applyHostMove]
    split <;> rfl
  | _ => rfl

theorem applyHostMoves_differs (mvs : List HostMove) (s : State) : DiffersAsHost s (applyHostMoves mvs s) := by
  induction mvs generalizing s with
  | nil => rfl
  | cons mv rest ih => exact (applyHostMove_differs mv s).trans (ih _)

/-- A write of another bus master is a store. -/
theorem dmaWrite_stores (s : State) (a : Word) (v : Byte) : StoresByte s (applyHostMove (.dmaWrite a v) s) a v := by
  simp only [applyHostMove]
  split
  next hram => exact ⟨fun _ => by simp, fun c hc => by simp [hc.resolve_right (not_not_intro hram)]⟩
  next hram => exact ⟨fun h => absurd h hram, fun _ _ => rfl⟩

theorem applyHostMove_peek {mv : HostMove} {s : State} {c : Word} (h : s.kindAt c ≠ .ram) :
    (applyHostMove mv s).peek c = s.peek c := by
  cases mv with
  | dmaWrite a v =>
    obtain ⟨-, hframe⟩ := dmaWrite_stores s a v
    refine hframe c ?_
    by_cases hca : c = a
    · exact .inr (hca ▸ h)
    · exact .inl hca
  | _ => rfl

theorem applyHostMoves_peek {mvs : List HostMove} {s : State} {c : Word} (h : s.kindAt c ≠ .ram) :
    (applyHostMoves mvs s).peek c = s.peek c := by
  induction mvs generalizing s with
  | nil => rfl
  | cons mv rest ih => exact (ih (by simpa [State.kindAt] using h)).trans (applyHostMove_peek h)

/-- Settles O60: the equation of each move, and the frame of a sequence by induction on it. -/
theorem hostMovesLeaveTheRegisters : Obligations.HostMovesLeaveTheRegisters := by
  unfold Obligations.HostMovesLeaveTheRegisters
  refine ⟨fun _ _ => ⟨rfl, rfl, rfl⟩, fun _ => ⟨rfl, rfl⟩, fun s a v => ⟨dmaWrite_stores s a v, ?_⟩,
    fun mvs s => ⟨applyHostMoves_differs mvs s, fun _ => applyHostMoves_peek⟩⟩
  simp only [applyHostMove]
  split <;> rfl

/-! ### The stuck wait -/

theorem wakes_eq_false_iff (masked : Bool) (mv : HostMove) :
    wakes masked mv = false ↔ (masked = true ∨ mv ≠ .irqLine true) ∧ mv ≠ .nmiRequest ∧ mv ≠ .resetLine true := by
  cases mv <;> simp [wakes, imp_iff_not_or, or_comm]

/-- The test that a run makes is the predicate `StuckWaiting`. -/
theorem stuckWaiting_iff_StuckWaiting (schedule : List (List HostMove)) (s : State) :
    stuckWaiting schedule s = true ↔ StuckWaiting schedule s := by
  rw [stuckWaiting_iff]
  unfold StuckWaiting
  simp only [wakes_eq_false_iff]
  constructor
  · rintro ⟨hw, hr, hn, hi, hmoves⟩
    refine ⟨hw, hr, hn, ?_, fun mvs hmvs => ⟨fun hmv => ?_, fun hmv => ?_⟩⟩
    · cases hmask : s.cc.i with
      | true => exact .inl rfl
      | false =>
        refine .inr ⟨by simpa [hmask] using hi, fun mvs hmvs hmv => ?_⟩
        simpa [hmask] using (hmoves mvs hmvs _ hmv).1
    · exact (hmoves mvs hmvs _ hmv).2.1 rfl
    · exact (hmoves mvs hmvs _ hmv).2.2 rfl
  · rintro ⟨hw, hr, hn, hi, hmoves⟩
    refine ⟨hw, hr, hn, hi.imp_right And.left, fun mvs hmvs mv hmv => ⟨?_, ?_, ?_⟩⟩
    · refine hi.imp_right fun ⟨_, hirq⟩ => ?_
      rintro rfl
      exact hirq mvs hmvs hmv
    · rintro rfl
      exact (hmoves mvs hmvs).1 hmv
    · rintro rfl
      exact (hmoves mvs hmvs).2 hmv

/-- A step of a machine that waits and that nothing wakes at most ends the holdoff. -/
theorem step_of_quiet_wait {s : State} (hw : s.waiting = true) (hr : s.resetActive = false) (hn : s.nmiPending = false)
    (hi : s.cc.i = true ∨ s.irqLow = false) :
    ∃ t, step s = .next t ∧ t = { s with bus := [], irqHoldoff := t.irqHoldoff } := by
  rcases Bool.eq_false_or_eq_true s.halted with hh | hh
  · exact ⟨_, step_halted hr hh, rfl⟩
  · exact ⟨_, step_wait hr hh hn (irqAccepted_eq_false_iff.2 (hi.symm.imp_right .inl)) hw, rfl⟩

/-- The moves of a stuck schedule leave the wait quiet, so the step leaves it stuck. -/
theorem hostStep_of_stuckWaiting {mvs : List HostMove} {rest : List (List HostMove)} {s : State}
    (h : stuckWaiting (mvs :: rest) s = true) :
    ∃ t, hostStep mvs s = .next t ∧ stuckWaiting rest t = true ∧
      t = { applyHostMoves mvs s with bus := [], irqHoldoff := t.irqHoldoff } := by
  obtain ⟨hw, hr, hn, hi, hmoves⟩ := (stuckWaiting_iff _ s).1 h
  obtain ⟨hr', hn', hi'⟩ := applyHostMoves_quiet (hmoves mvs (by simp)) hr hn hi
  obtain ⟨t, hstep, ht⟩ := step_of_quiet_wait (s := applyHostMoves mvs s) (by simpa using hw) hr' hn' (by simpa using hi')
  refine ⟨t, hstep, (stuckWaiting_iff _ t).2 ?_, ht⟩
  rw [ht]
  refine ⟨by simpa using hw, hr', hn', by simpa using hi', fun m hm mv hmv => ?_⟩
  simpa using hmoves m (List.mem_cons_of_mem _ hm) mv hmv

theorem runSchedule_of_stuckWaiting {schedule : List (List HostMove)} {s : State} (h : stuckWaiting schedule s = true) :
    runSchedule schedule s = .stuckWaiting s := by
  rw [runSchedule.eq_def, if_pos h]

/-- Settles O12: the run's test is `StuckWaiting`, and quiet moves and a still step keep it. -/
theorem stuckWaitingStaysStuck : Obligations.StuckWaitingStaysStuck := by
  unfold Obligations.StuckWaitingStaysStuck
  refine ⟨fun schedule s h => runSchedule_of_stuckWaiting ((stuckWaiting_iff_StuckWaiting _ s).2 h),
    fun mvs rest s h => ?_⟩
  obtain ⟨t, hstep, hstuck, ht⟩ := hostStep_of_stuckWaiting ((stuckWaiting_iff_StuckWaiting _ s).2 h)
  refine ⟨t, hstep, (stuckWaiting_iff_StuckWaiting rest t).1 hstuck, ?_⟩
  rw [ht]
  simp [State.peek]

/-! ### The ends at the fetch -/

/-- The instruction that the byte 3Fh is. -/
theorem fetch_swi {s : State} (h : (read8 s.pc s).1 = 0x3F) : (fetch s).1 = .swi := by
  unfold fetch
  simp only [h]
  rfl

/-- A run whose first step stops ends there: a stuck wait would not stop. -/
theorem runSchedule_of_fault {mvs : List HostMove} {rest : List (List HostMove)} {s : State} {e : Fault}
    (h : hostStep mvs s = .fault e) :
    runSchedule (mvs :: rest) s = .stopped e { applyHostMoves mvs s with bus := [], irqHoldoff := false } := by
  refine runSchedule_fault (Bool.eq_false_iff.2 fun hstuck => ?_) h
  obtain ⟨t, hstep, -⟩ := hostStep_of_stuckWaiting hstuck
  rw [h] at hstep
  cases hstep

/-- Settles O13: the tests of the end of a run are made on the instruction that the first byte read decides. -/
theorem runEndsWhereTheHostAsks : Obligations.RunEndsWhereTheHostAsks := by
  unfold Obligations.RunEndsWhereTheHostAsks
  refine ⟨fun s hs hstop hop => ?_, fun s hs hstop hswi hop => ?_, fun mvs rest s e => runSchedule_of_fault⟩
  · rw [step_atFetch_eq hs]
    refine executeFetched_stopAt (fetch_assigned ?_) (by simpa using hstop)
    simpa only [read8_begin] using hop
  · rw [step_atFetch_eq hs]
    refine executeFetched_stopOnSwi (fetch_swi ?_) (by simpa using hstop) (by simpa using hswi)
    simpa only [read8_begin] using hop

/-- Settles O14: every assigned instruction completes, and an unassigned code is fetched as itself and faults. -/
theorem unassignedCodeIsTheOnlyFault : Obligations.UnassignedCodeIsTheOnlyFault := by
  unfold Obligations.UnassignedCodeIsTheOnlyFault
  refine ⟨fun i s hi => ?_, fun _ _ => rfl, fun s hs hop => ?_⟩
  · obtain ⟨t, ht, -⟩ := Effect.exec_completes i s hi
    exact ⟨t, ht⟩
  · have hop' : (read8 s.pc { s with bus := [], irqHoldoff := false }).1 ∈ unassignedCodes := by rwa [read8_begin]
    rw [step_atFetch_eq hs, fetch_unassigned hop', executeFetched_unassigned]
    simp only [read8_begin]

/-! ### The instruction whose bytes stand at PC -/

theorem opLength_le (op : Byte) : opLength op ≤ 3 := Effect.length_le _

/-- Three bytes hold an instruction: the cell of the first one, filled with the operand bytes of its format. -/
theorem decode_three_bytes (op b1 b2 : Byte) : decode [op, b1, b2] =
    .ok (decodeOp op (if 2 ≤ opLength op then b1 else 0) (if 3 ≤ opLength op then b2 else 0),
      [op, b1, b2].drop (opLength op)) := by
  have hpos := Effect.opLength_pos op
  have hle := opLength_le op
  obtain h | h | h : opLength op = 1 ∨ opLength op = 2 ∨ opLength op = 3 := by omega
  · simpa [h] using decode_one h
  · simpa [h] using decode_two h
  · simpa [h] using decode_three h

/-- The fetch of a step, where memory holds the bytes of an assigned instruction at PC. -/
theorem fetch_of_decode {s : State} {i : Instr} {rest : List Byte} (hi : ∀ op, i ≠ .unassigned op)
    (hheld : ∀ k, k < i.length → Held s (s.pc + BitVec.ofNat 16 k))
    (hdecode : decode [s.peek s.pc, s.peek (s.pc + 1), s.peek (s.pc + 2)] = .ok (i, rest)) :
    fetch { s with bus := [], irqHoldoff := false } = (i, { s with
      pc := s.pc + BitVec.ofNat 16 i.length, irqHoldoff := false, cycles := s.cycles + instrCycles i,
      bus := fetchReads s i.length }) := by
  rw [decode_three_bytes] at hdecode
  injection hdecode with hpair
  obtain ⟨hcell, -⟩ := Prod.mk.inj hpair
  have hlen : opLength (s.peek s.pc) = i.length := by rw [← hcell, decodeOp_length]
  rw [hlen] at hcell
  rw [fetch_begin_held hlen (hlen ▸ Effect.opLength_pos _) (Effect.length_le i) hheld, hcell]
  split
  next op => exact absurd rfl (hi op)
  next => rfl

/-- Settles O1: the bytes at PC are what is fetched, and no end of the run is asked for. -/
theorem stepRunsDecodedInstruction : Obligations.StepRunsDecodedInstruction := by
  unfold Obligations.StepRunsDecodedInstruction
  intro s i rest hs hstop hswi hi hheld hdecode
  rw [step_atFetch_eq hs, fetch_of_decode hi hheld hdecode, executeFetched_exec hstop hswi]

end Sys2Proof.Proofs.Runs
end

section
/-! Memory, the stack and the operands (20_memory.md sections 2 to 7, 40_addressing_modes.md sections 5 to 10, 10_state.md
section 2): the laws of the operations, put in the terms of the obligations. -/

namespace Sys2Proof.Proofs.Operands

open Sys2Proof.Machine Sys2Proof.Safety

theorem wordOf_toNat (h l : Byte) : (wordOf h l).toNat = 256 * h.toNat + l.toNat := by
  rw [wordOf, BitVec.toNat_append, ← Nat.shiftLeft_add_eq_or_of_lt l.isLt, Nat.shiftLeft_eq]
  omega

theorem zext16_toNat (v : Byte) : (zext16 v).toNat = v.toNat := by
  simp [zext16]; omega

/-- A read of an address that holds nothing, as one pair. -/
theorem read8_free_eq {s : State} {a : Word} (h : ¬ Held s a) :
    read8 a s = (Config.freeByte s.draws,
      { s with draws := s.draws + 1, bus := s.bus ++ [.read a (Config.freeByte s.draws)] }) := by
  unfold Held at h
  unfold read8
  cases hk : s.kindAt a
  case ram => exact absurd (.inl hk) h
  case rom => exact absurd (.inr hk) h
  all_goals rfl

/-- A 16-bit read by its two reads. -/
theorem read16_reads (a : Word) (s : State) :
    let h := read8 a s
    let l := read8 (a + 1) h.2
    (read16 a s).1 = wordOf h.1 l.1 ∧ (read16 a s).1.toNat = 256 * h.1.toNat + l.1.toNat ∧
      (read16 a s).2 = { s with bus := s.bus ++ [.read a h.1, .read (a + 1) l.1], draws := l.2.draws } := by
  refine ⟨rfl, wordOf_toNat _ _, (read16_eq a s).trans ?_⟩
  simp only [read16, hi8_wordOf, lo8_wordOf]

/-- A 16-bit read of two bytes that are held draws nothing. -/
theorem read16_held_eq {s : State} {a : Word} (h : Held s a) (h' : Held s (a + 1)) :
    read16 a s = (wordOf (s.peek a) (s.peek (a + 1)),
      { s with bus := s.bus ++ [.read a (s.peek a), .read (a + 1) (s.peek (a + 1))] }) := by
  have hl : Held { s with bus := s.bus ++ [.read a (s.peek a)] } (a + 1) := h'
  simp only [read16, read8_held_eq h, read8_held_eq hl, List.append_assoc, List.cons_append, List.nil_append]
  rfl

/-- A pull is the read above SP. -/
theorem pull8_reads (s : State) : (pull8 s).1 = (read8 (s.sp + 1) s).1 ∧
    (pull8 s).2 = { s with sp := s.sp + 1, bus := s.bus ++ [.read (s.sp + 1) (read8 (s.sp + 1) s).1],
                           draws := (read8 (s.sp + 1) s).2.draws } := by
  obtain ⟨hv, -, -, hd, -⟩ := pull8_read8 (s := s) (t := s) (a := s.sp + 1) rfl rfl rfl rfl rfl
  exact ⟨hv, by rw [pull8_eq, hv, hd]⟩

/-! ### The obligations on memory and the stack -/

/-- Settles O15: a read by the kind of its address. -/
theorem readGivesTheByteHeldOrAFreeOne : Obligations.ReadGivesTheByteHeldOrAFreeOne := by
  unfold Obligations.ReadGivesTheByteHeldOrAFreeOne
  exact fun _ _ => ⟨read8_held_eq, read8_free_eq⟩

/-- Settles O16: a write is one store and one record update. -/
theorem writeChangesOneByteOfRam : Obligations.WriteChangesOneByteOfRam := by
  unfold Obligations.WriteChangesOneByteOfRam
  exact fun s a v => ⟨write8_stores a v s, write8_eq a v s⟩

/-- Settles O17: a 16-bit access is two 8-bit accesses, the high byte first. -/
theorem wordsAreBigEndian : Obligations.WordsAreBigEndian := by
  unfold Obligations.WordsAreBigEndian
  refine ⟨fun s a => read16_reads a s, fun s a h h' => ?_, fun s a v => ⟨write16_stores a v s, write16_eq a v s⟩⟩
  rw [read16_held_eq h h']
  exact ⟨rfl, rfl⟩

/-- Settles O18: a push and a pull as record updates. -/
theorem pushAndPullMoveOneByte : Obligations.PushAndPullMoveOneByte := by
  unfold Obligations.PushAndPullMoveOneByte
  exact ⟨fun s v => ⟨push8_stores v s, push8_eq v s⟩, pull8_reads⟩

/-- Settles O19: a 16-bit push is two pushes and a 16-bit pull two pulls. -/
theorem wordsGoOnTheStackLowByteFirst : Obligations.WordsGoOnTheStackLowByteFirst := by
  unfold Obligations.WordsGoOnTheStackLowByteFirst
  refine ⟨fun s v => ⟨rfl, push16_stores v s, by rw [push16_eq]⟩, fun s => ⟨rfl, rfl, ?_⟩⟩
  rw [pull16_sp]
  bv_omega

/-! ### The condition code register as a byte -/

theorem toByte_toNat (f : Flags) : f.toByte.toNat =
    192 + 32 * f.h.toNat + 16 * f.i.toNat + 8 * f.n.toNat + 4 * f.z.toNat + 2 * f.v.toNat + f.c.toNat := by
  obtain ⟨h, i, n, z, v, c⟩ := f
  revert h i n z v c
  decide

theorem ofByte_toByte (f : Flags) : Flags.ofByte f.toByte = f := by
  obtain ⟨h, i, n, z, v, c⟩ := f
  revert h i n z v c
  decide

theorem toByte_ofByte : ∀ v : Byte, (Flags.ofByte v).toByte = v ||| 0xC0 := by decide

/-- Settles O20: the 64 values of the flags, and the 256 bytes. -/
theorem ccrByteLayout : Obligations.CcrByteLayout := by
  unfold Obligations.CcrByteLayout
  exact ⟨fun f => ⟨toByte_toNat f, ofByte_toByte f⟩,
    fun v => ⟨rfl, rfl, rfl, rfl, rfl, rfl, toByte_ofByte v⟩⟩

/-! ### Operands -/

theorem branchTarget_toNat (rel : Byte) (s : State) :
    (branchTarget rel s).toNat = ((s.pc.toNat : Int) + rel.toInt).emod 65536 := by
  change _ = ((s.pc.toNat : Int) + rel.toInt) % 65536
  rw [branchTarget, sext16, BitVec.toNat_add, BitVec.toNat_signExtend, BitVec.toNat_setWidth,
    BitVec.toInt_eq_msb_cond]
  cases rel.msb
  · simp only [Bool.false_eq_true, if_false]
    omega
  · simp only [if_true]
    omega

/-- Settles O21: the operand functions by their modes, reading being the read of the law. -/
theorem operandsOfEachMode : Obligations.OperandsOfEachMode := by
  unfold Obligations.OperandsOfEachMode
  refine ⟨fun s v h l => ⟨rfl, rfl, wordOf_toNat h l⟩, fun s v h l => ⟨zext16_toNat v, ?_, wordOf_toNat h l, rfl, rfl⟩,
    fun _ _ => rfl, fun s ea => read16_reads _ s, fun s m => readSrc8_eq m s, fun s m => readSrc16_eq m s,
    fun s rel => branchTarget_toNat rel s⟩
  rw [effAddr, BitVec.toNat_add, zext16_toNat]

end Sys2Proof.Proofs.Operands
end

section
/-! What the flag computations mean in numbers (10_state.md R28 to R31; 41_acc_mem_arith.md R130 to R139; 44_index_stack.md
R190): sign bits and halves as bounds and quotients, after which each claim is linear arithmetic. -/

namespace Sys2Proof.Proofs.FlagMeaning

open Sys2Proof.Machine Sys2Proof.Safety

/-! ### Bits, signs and halves as numbers -/

theorem getLsbD_seven (v : Byte) : v.getLsbD 7 = decide (128 ≤ v.toNat) :=
  (BitVec.msb_eq_getLsbD_last v).symm.trans (BitVec.msb_eq_decide v)

theorem getLsbD_fifteen (v : Word) : v.getLsbD 15 = decide (32768 ≤ v.toNat) :=
  (BitVec.msb_eq_getLsbD_last v).symm.trans (BitVec.msb_eq_decide v)

/-- The signed value of a byte. -/
theorem toInt_byte (v : Byte) :
    (v.toNat < 128 ∧ v.toInt = v.toNat) ∨ (128 ≤ v.toNat ∧ v.toInt = (v.toNat : Int) - 256) := by
  rw [BitVec.toInt_eq_toNat_cond]
  split <;> omega

/-- The signed value of a word. -/
theorem toInt_word (v : Word) :
    (v.toNat < 32768 ∧ v.toInt = v.toNat) ∨ (32768 ≤ v.toNat ∧ v.toInt = (v.toNat : Int) - 65536) := by
  rw [BitVec.toInt_eq_toNat_cond]
  split <;> omega

theorem hi8_toNat (v : Word) : (hi8 v).toNat = v.toNat / 256 := by
  have := v.isLt
  simp only [hi8, BitVec.extractLsb'_toNat, Nat.shiftRight_eq_div_pow]
  omega

theorem lo8_toNat (v : Word) : (lo8 v).toNat = v.toNat % 256 := by
  simp [lo8]

/-! ### Overflow and borrow -/

theorem add8_fst_toNat (x y : Byte) (c : Bool) (f : Flags) :
    (add8 x y c f).1.toNat = (x.toNat + y.toNat + c.toNat) % 256 :=
  BitVec.toNat_ofNat _ 8

theorem sub8_fst_toNat (x y : Byte) (c : Bool) (f : Flags) :
    ((sub8 x y c f).1.toNat : Int) = ((x.toNat : Int) - y.toNat - c.toNat) % 256 := by
  change ((BitVec.ofInt 8 (subDiff x y c)).toNat : Int) = _
  rw [BitVec.toNat_ofInt, subDiff]
  omega

/-- V of an addition: the operands have one sign and the result the other. -/
theorem add8_v (x y : Byte) (c : Bool) (f : Flags) : (add8 x y c f).2.v = true ↔
    (x.getLsbD 7 = y.getLsbD 7 ∧ (add8 x y c f).1.getLsbD 7 ≠ x.getLsbD 7) := by
  change ((x.getLsbD 7 && y.getLsbD 7 && !(add8 x y c f).1.getLsbD 7) ||
    (!x.getLsbD 7 && !y.getLsbD 7 && (add8 x y c f).1.getLsbD 7)) = true ↔ _
  cases x.getLsbD 7 <;> cases y.getLsbD 7 <;> simp

/-- V of a subtraction: the operands differ in sign and the result has that of the subtrahend. -/
theorem sub8_v (x y : Byte) (c : Bool) (f : Flags) : (sub8 x y c f).2.v = true ↔
    (x.getLsbD 7 ≠ y.getLsbD 7 ∧ (sub8 x y c f).1.getLsbD 7 ≠ x.getLsbD 7) := by
  change ((x.getLsbD 7 && !y.getLsbD 7 && !(sub8 x y c f).1.getLsbD 7) ||
    (!x.getLsbD 7 && y.getLsbD 7 && (sub8 x y c f).1.getLsbD 7)) = true ↔ _
  cases x.getLsbD 7 <;> cases y.getLsbD 7 <;> simp

theorem sub8_c_iff (x y : Byte) (c : Bool) (f : Flags) : (sub8 x y c f).2.c = true ↔ x.toNat < y.toNat + c.toNat := by
  rw [sub8_c, subDiff]
  omega

theorem add8_v_iff (x y : Byte) (c : Bool) (f : Flags) : (add8 x y c f).2.v = true ↔
    ¬ (-128 ≤ x.toInt + y.toInt + c.toNat ∧ x.toInt + y.toInt + c.toNat ≤ 127) := by
  have hr := add8_fst_toNat x y c f
  have hc := Bool.toNat_le c
  have hx := toInt_byte x
  have hy := toInt_byte y
  simp only [add8_v, getLsbD_seven, ne_eq, decide_eq_decide]
  omega

theorem sub8_v_iff (x y : Byte) (c : Bool) (f : Flags) : (sub8 x y c f).2.v = true ↔
    ¬ (-128 ≤ x.toInt - y.toInt - c.toNat ∧ x.toInt - y.toInt - c.toNat ≤ 127) := by
  have hr := sub8_fst_toNat x y c f
  have hc := Bool.toNat_le c
  have hx := toInt_byte x
  have hy := toInt_byte y
  simp only [sub8_v, getLsbD_seven, ne_eq, decide_eq_decide]
  omega

/-- Settles O29: the sign bits as bounds on the operands and on the result mod 256. -/
theorem overflowMeansTheSignedResultDoesNotFit : Obligations.OverflowMeansTheSignedResultDoesNotFit := by
  unfold Obligations.OverflowMeansTheSignedResultDoesNotFit
  exact fun x y c f => ⟨add8_v_iff x y c f, sub8_v_iff x y c f, sub8_c_iff x y c f⟩

/-! ### Decimal adjust -/

/-- The low correction of R139. -/
def daaLow (a : Byte) (f : Flags) : Nat := if a.toNat % 16 > 9 ∨ f.h = true then 6 else 0

/-- The high correction of R139. -/
def daaHigh (a : Byte) (f : Flags) : Nat :=
  if a.toNat / 16 > 9 ∨ f.c = true ∨ (a.toNat / 16 > 8 ∧ a.toNat % 16 > 9) then 96 else 0

/-- The two corrections have no bit in common. -/
theorem daaCorrection_toNat (a : Byte) (f : Flags) : (daaCorrection a f).toNat = daaLow a f + daaHigh a f := by
  unfold daaCorrection daaLow daaHigh
  dsimp only
  split <;> split <;> rfl

/-- C asks for the high correction alone. -/
theorem daaCorrection_high (a : Byte) (f : Flags) : daaCorrection a f &&& 0x60 ≠ 0 ↔ daaHigh a f ≠ 0 := by
  unfold daaCorrection daaHigh
  dsimp only
  split <;> split <;> decide

theorem opDaa_fst_toNat (a : Byte) (v : Bool) (f : Flags) :
    (opDaa a v f).1.toNat = (a.toNat + daaLow a f + daaHigh a f) % 256 := by
  change (a + daaCorrection a f).toNat = _
  rw [BitVec.toNat_add, daaCorrection_toNat, Nat.add_assoc]

theorem opDaa_c (a : Byte) (v : Bool) (f : Flags) : (opDaa a v f).2.c = true ↔ (f.c = true ∨ daaHigh a f ≠ 0) := by
  change (f.c || decide (daaCorrection a f &&& 0x60 ≠ 0)) = true ↔ _
  simp only [Bool.or_eq_true, decide_eq_true_eq, daaCorrection_high]

/-- Settles O30: H and C say where the digits of the binary sum passed 15, and the corrections carry them past 9. -/
theorem decimalAdjustGivesTheDecimalSum : Obligations.DecimalAdjustGivesTheDecimalSum := by
  unfold Obligations.DecimalAdjustGivesTheDecimalSum
  rintro x y cin v f ⟨hxl, hxh⟩ ⟨hyl, hyh⟩ p d
  have hcin := Bool.toNat_le cin
  have hp : p.1.toNat = (x.toNat + y.toNat + cin.toNat) % 256 := add8_fst_toNat x y cin f
  have hh : p.2.h = true ↔ 16 ≤ x.toNat % 16 + y.toNat % 16 + cin.toNat := add8_h x y cin f
  have hc : p.2.c = true ↔ 256 ≤ x.toNat + y.toNat + cin.toNat := add8_c x y cin f
  have hd : d.1.toNat = (p.1.toNat + daaLow p.1 p.2 + daaHigh p.1 p.2) % 256 := opDaa_fst_toNat p.1 v p.2
  have hdc : d.2.c = true ↔ (p.2.c = true ∨ daaHigh p.1 p.2 ≠ 0) := opDaa_c p.1 v p.2
  have hdn : d.2.c.toNat = if p.2.c = true ∨ daaHigh p.1 p.2 ≠ 0 then 1 else 0 := by
    cases hb : d.2.c <;> simp_all
  unfold IsBcd bcdValue
  rw [hdn, hd]
  unfold daaLow daaHigh
  simp only [hh, hc]
  split_ifs <;> omega

/-! ### CPX -/

/-- The borrow of the low bytes, where CPX_HIGH_BORROW lets it in (R190). -/
def cpxBorrow (x m : Word) (highBorrow : Bool) : Int :=
  if highBorrow = true ∧ (lo8 x).toNat < (lo8 m).toNat then 1 else 0

/-- The difference of the high bytes (R190). -/
def cpxHigh (x m : Word) (highBorrow : Bool) : Byte :=
  BitVec.ofInt 8 (((hi8 x).toNat : Int) - (hi8 m).toNat - cpxBorrow x m highBorrow)

theorem cpxHigh_toNat (x m : Word) (highBorrow : Bool) : ((cpxHigh x m highBorrow).toNat : Int) =
    ((hi8 x).toNat - (hi8 m).toNat - cpxBorrow x m highBorrow) % 256 := by
  rw [cpxHigh, BitVec.toNat_ofInt]
  omega

theorem cpxHigh_eq_sub (x m : Word) (highBorrow : Bool) : cpxHigh x m highBorrow =
    hi8 x - hi8 m - (if highBorrow = true ∧ (lo8 x).toNat < (lo8 m).toNat then 1 else 0) := by
  have h := cpxHigh_toNat x m highBorrow
  apply BitVec.eq_of_toNat_eq
  unfold cpxBorrow at h
  split at h
  next hb => rw [if_pos hb]; bv_omega
  next hb => rw [if_neg hb]; bv_omega

theorem flagsCpx_n (x m : Word) (highBorrow : Bool) (f : Flags) :
    (flagsCpx x m highBorrow f).n = (cpxHigh x m highBorrow).getLsbD 7 := by
  rw [cpxHigh_eq_sub]
  rfl

theorem flagsCpx_v (x m : Word) (highBorrow : Bool) (f : Flags) : (flagsCpx x m highBorrow f).v = true ↔
    ((hi8 x).getLsbD 7 ≠ (hi8 m).getLsbD 7 ∧ (hi8 x).getLsbD 7 ≠ (cpxHigh x m highBorrow).getLsbD 7) := by
  rw [cpxHigh_eq_sub]
  unfold flagsCpx
  simp only [Bool.and_eq_true, bne_iff_ne]

/-- With the borrow let in, the high difference is the high byte of the whole difference. -/
theorem cpxHigh_true_toNat (x m : Word) : (cpxHigh x m true).toNat = (x - m).toNat / 256 := by
  have h := cpxHigh_toNat x m true
  have hx := x.isLt
  have hm := m.isLt
  simp only [cpxBorrow, hi8_toNat, lo8_toNat, true_and] at h
  rw [BitVec.toNat_sub]
  split at h <;> omega

theorem cpxHigh_false (x m : Word) : cpxHigh x m false = hi8 x - hi8 m := by
  rw [cpxHigh_eq_sub, if_neg (by simp)]
  exact sub_zero _

/-- Settles O37: the sign bits and halves of the two words in numbers. -/
theorem cpxFlagsAreThoseOfTheChosenSubtraction : Obligations.CpxFlagsAreThoseOfTheChosenSubtraction := by
  unfold Obligations.CpxFlagsAreThoseOfTheChosenSubtraction
  intro x m f
  refine ⟨⟨?_, ?_⟩, ?_, ?_⟩
  · rw [flagsCpx_n, getLsbD_seven, getLsbD_fifteen, cpxHigh_true_toNat, decide_eq_decide]
    omega
  · have hx := toInt_word x
    have hm := toInt_word m
    have hd := BitVec.toNat_sub x m
    simp only [flagsCpx_v, getLsbD_seven, ne_eq, decide_eq_decide, cpxHigh_true_toNat, hi8_toNat]
    omega
  · rw [flagsCpx_n, cpxHigh_false]
  · have hx := toInt_byte (hi8 x)
    have hm := toInt_byte (hi8 m)
    have hd := BitVec.toNat_sub (hi8 x) (hi8 m)
    simp only [flagsCpx_v, getLsbD_seven, ne_eq, decide_eq_decide, cpxHigh_false]
    omega

end Sys2Proof.Proofs.FlagMeaning
end

section
/-! The shapes of the instruction claims (Sys2Proof/Safety.lean): from the operation that an instruction applies to the claim
about its accumulator, comparison, memory and transfer forms, and from its table line to its encodings. -/

namespace Sys2Proof.Proofs.Shapes

open Sys2Proof.Machine Sys2Proof.Safety

/-! ### Completion -/

/-- A claim about two bytes on the accumulators: the operation `op` gives the value `v` and flags as `F` says. -/
theorem combines_of {ia ib : Src8 → Instr} {op : Byte → Byte → Flags → Byte × Flags} {v : Byte → Byte → Flags → Byte}
    {F : Byte → Byte → Flags → Flags → Prop} (ha : ∀ m s, exec (ia m) s = .next (combineAcc op .a m s))
    (hb : ∀ m s, exec (ib m) s = .next (combineAcc op .b m s)) (hv : ∀ x y f, (op x y f).1 = v x y f)
    (hF : ∀ x y f, F x y f (op x y f).2) : Combines ia ib v F := by
  have takes : ∀ r m s, AccTakes r m (v (s.acc r) (readSrc8 m s).1 s.cc) (F (s.acc r) (readSrc8 m s).1 s.cc) s
      (combineAcc op r m s) := by
    intro r m s
    obtain ⟨hacc, hother, hptr, hcc, hrest⟩ := combineAcc_takes op r m s
    exact ⟨hacc.trans (hv _ _ _), hother, hptr, hcc ▸ hF _ _ _, hrest⟩
  exact ⟨fun s m => ⟨_, ha m s, takes .a m s⟩, fun s m => ⟨_, hb m s, takes .b m s⟩⟩

/-- The same for a comparison. -/
theorem compares_of {ia ib : Src8 → Instr} {op : Byte → Byte → Flags → Byte × Flags}
    {F : Byte → Byte → Flags → Flags → Prop} (ha : ∀ m s, exec (ia m) s = .next (compareAcc op .a m s))
    (hb : ∀ m s, exec (ib m) s = .next (compareAcc op .b m s)) (hF : ∀ x y f, F x y f (op x y f).2) :
    Compares ia ib F := by
  have only : ∀ r m s, OnlyFlags m (F (s.acc r) (readSrc8 m s).1 s.cc) s (compareAcc op r m s) := by
    intro r m s
    obtain ⟨ha, hb, hptr, hcc, hrest⟩ := compareAcc_only op r m s
    exact ⟨ha, hb, hptr, hcc ▸ hF _ _ _, hrest⟩
  exact ⟨fun s m => ⟨_, ha m s, only .a m s⟩, fun s m => ⟨_, hb m s, only .b m s⟩⟩

/-- The same for a single-operand instruction in its accumulator and memory forms. -/
theorem modifies_of {ia ib : Instr} {im : AddrX → Instr} {op : Byte → Flags → Byte × Flags} {v : Byte → Flags → Byte}
    {F : Byte → Flags → Flags → Prop} (ha : ∀ s, exec ia s = .next (modifyAcc op .a s))
    (hb : ∀ s, exec ib s = .next (modifyAcc op .b s)) (hm : ∀ m s, exec (im m) s = .next (modifyMem op m s))
    (hv : ∀ o f, (op o f).1 = v o f) (hF : ∀ o f, F o f (op o f).2) : Modifies ia ib im v F := by
  have becomes : ∀ r s, AccBecomes r (v (s.acc r) s.cc) (F (s.acc r) s.cc) s (modifyAcc op r s) := by
    intro r s
    obtain ⟨hacc, hother, hptr, hcc, hrest⟩ := modifyAcc_becomes op r s
    exact ⟨hacc.trans (hv _ _), hother, hptr, hcc ▸ hF _ _, hrest⟩
  refine ⟨fun s => ⟨_, ha s, becomes .a s⟩, fun s => ⟨_, hb s, becomes .b s⟩, fun s m => ⟨_, hm m s, ?_⟩⟩
  obtain ⟨hstore, hbus, hcc, hrest⟩ := modifyMem_becomes op m s
  simp only [hv] at hstore hbus
  exact ⟨hstore, hbus, hcc ▸ hF _ _, hrest⟩

/-- An accumulator and the flags are written, nothing else. -/
theorem accBecomes_set {F : Flags → Prop} (r : Acc) (v : Byte) {g : Flags} (s : State) (hF : F g) :
    AccBecomes r v F s ((s.setAcc r v).setCc g) := by
  cases r <;> exact ⟨rfl, rfl, ⟨rfl, rfl, rfl⟩, hF, ⟨rfl, rfl, rfl, rfl, rfl, rfl, rfl, rfl⟩, fun _ => rfl, rfl, rfl⟩

/-- A value that is moved or computed bitwise. -/
theorem moveFlags8_move8 (r : Byte) (f : Flags) : MoveFlags8 r f (f.move8 r) :=
  ⟨rfl, decide_eq_true_iff, rfl, rfl, rfl, rfl⟩

/-- A 16-bit value that is moved. -/
theorem moveFlags16_move16 (r : Word) (f : Flags) : MoveFlags16 r f (f.move16 r) :=
  ⟨rfl, decide_eq_true_iff, rfl, rfl, rfl, rfl⟩

/-! ### Encodings -/

theorem encodesAddrX_of {f : AddrX → Instr} {idx ext : Byte} {ci ce : Nat} (h : ∀ m, encode (f m) = encodeAddrX idx ext m)
    (hc : ∀ m, instrCycles (f m) = addrXCycles ci ce m) : EncodesAddrX f idx ci ext ce :=
  ⟨fun _ => ⟨h _, hc _⟩, fun _ _ => ⟨(h _).trans (by simp [encodeAddrX]), hc _⟩⟩

theorem encodesAddr_of {f : Addr → Instr} {dir idx ext : Byte} {cd ci ce : Nat}
    (h : ∀ m, encode (f m) = encodeAddr dir idx ext m) (hc : ∀ m, instrCycles (f m) = addrCycles cd ci ce m) :
    EncodesAddr f dir cd idx ci ext ce :=
  ⟨fun _ => ⟨h _, hc _⟩, fun _ => ⟨h _, hc _⟩, fun _ _ => ⟨(h _).trans (by simp [encodeAddr]), hc _⟩⟩

theorem encodesSrc8_of {f : Src8 → Instr} {imm dir idx ext : Byte} (h : ∀ m, encode (f m) = encodeSrc8 imm dir idx ext m)
    (hc : ∀ m, instrCycles (f m) = src8Cycles 2 3 5 4 m) : EncodesSrc8 f imm dir idx ext :=
  ⟨fun _ => ⟨h _, hc _⟩, encodesAddr_of (fun _ => h _) (fun _ => hc _)⟩

theorem encodesSrc16_of {f : Src16 → Instr} {imm dir idx ext : Byte}
    (h : ∀ m, encode (f m) = encodeSrc16 imm dir idx ext m) (hc : ∀ m, instrCycles (f m) = src16Cycles 3 4 6 5 m) :
    EncodesSrc16 f imm dir idx ext :=
  ⟨fun _ _ => ⟨(h _).trans (by simp [encodeSrc16]), hc _⟩, encodesAddr_of (fun _ => h _) (fun _ => hc _)⟩

end Sys2Proof.Proofs.Shapes
end

section
/-! The accumulator and memory instructions (41_acc_mem_arith.md, 42_acc_mem_logic_shift.md, 43_acc_mem_move.md): for each
operation its value and flags as its rule has them, and from these the claims by their shapes. -/

namespace Sys2Proof.Proofs.AccMem

open Sys2Proof.Machine Sys2Proof.Safety Sys2Proof.Proofs.FlagMeaning Sys2Proof.Proofs.Shapes

/-! ### Addition and subtraction -/

theorem add8_sumFlags (x y : Byte) (c : Bool) (f : Flags) :
    SumFlags x y c (BitVec.ofNat 8 (x.toNat + y.toNat + c.toNat)) f (add8 x y c f).2 :=
  ⟨add8_h x y c f, rfl, add8_z x y c f, add8_v x y c f, add8_c x y c f, rfl⟩

theorem sub8_diffFlags (x y : Byte) (c : Bool) (f : Flags) : DiffFlags x y c (sub8 x y c f).1 f (sub8 x y c f).2 :=
  ⟨rfl, sub8_z x y c f, sub8_v x y c f, sub8_c_iff x y c f, rfl, rfl⟩

/-- Without a borrow in, the difference is that of the bytes. -/
theorem opSub_fst (x y : Byte) (f : Flags) : (opSub x y f).1 = x - y := by
  have h := sub8_fst_toNat x y false f
  have hb : (false.toNat : Int) = 0 := rfl
  rw [hb] at h
  apply BitVec.eq_of_toNat_eq
  rw [BitVec.toNat_sub]
  change (sub8 x y false f).1.toNat = _
  omega

theorem opSub_diffFlags (x y : Byte) (f : Flags) : DiffFlags x y false (x - y) f (opSub x y f).2 :=
  opSub_fst x y f ▸ sub8_diffFlags x y false f

/-- Settles O22: ADD8 with and without the carry in. -/
theorem additionResultAndFlags : Obligations.AdditionResultAndFlags := by
  unfold Obligations.AdditionResultAndFlags
  refine ⟨?add, ?adc, ?aba, ?_, ?_, ?_, ?_, rfl, rfl⟩
  case add =>
    exact combines_of (op := opAdd) (fun _ _ => rfl) (fun _ _ => rfl) (fun _ _ _ => rfl)
      (fun x y f => add8_sumFlags x y false f)
  case adc =>
    exact combines_of (op := opAdc) (fun _ _ => rfl) (fun _ _ => rfl) (fun _ _ _ => rfl)
      (fun x y f => add8_sumFlags x y f.c f)
  case aba => exact fun s => ⟨_, rfl, accBecomes_set .a _ s (add8_sumFlags s.a s.b false s.cc)⟩
  all_goals exact encodesSrc8_of (fun _ => rfl) (fun _ => rfl)

/-- Settles O23: SUB8 with and without the borrow in. -/
theorem subtractionResultAndFlags : Obligations.SubtractionResultAndFlags := by
  unfold Obligations.SubtractionResultAndFlags
  refine ⟨?sub, ?sbc, ?sba, ?_, ?_, ?_, ?_, rfl, rfl⟩
  case sub => exact combines_of (op := opSub) (fun _ _ => rfl) (fun _ _ => rfl) opSub_fst opSub_diffFlags
  case sbc =>
    exact combines_of (op := opSbc) (fun _ _ => rfl) (fun _ _ => rfl) (fun _ _ _ => rfl)
      (fun x y f => sub8_diffFlags x y f.c f)
  case sba =>
    intro s
    have h := accBecomes_set .a (opSub s.a s.b s.cc).1 s (opSub_diffFlags s.a s.b s.cc)
    exact ⟨_, rfl, opSub_fst s.a s.b s.cc ▸ h⟩
  all_goals exact encodesSrc8_of (fun _ => rfl) (fun _ => rfl)

/-- Settles O24: the flags of SUB8, the difference discarded. -/
theorem comparisonWritesFlagsOnly : Obligations.ComparisonWritesFlagsOnly := by
  unfold Obligations.ComparisonWritesFlagsOnly
  refine ⟨compares_of (op := opSub) (fun _ _ => rfl) (fun _ _ => rfl) opSub_diffFlags,
    fun s => ⟨_, rfl, opSub_diffFlags s.a s.b s.cc, rfl⟩, ?_, ?_, rfl, rfl⟩
  all_goals exact encodesSrc8_of (fun _ => rfl) (fun _ => rfl)

/-! ### One operand -/

theorem opNeg_fst (o : Byte) (f : Flags) : (opNeg o f).1 = -o := BitVec.zero_sub o

theorem ofInt_neg_toNat (o : Byte) : BitVec.ofInt 8 (-(o.toNat : Int)) = -o := by
  apply BitVec.eq_of_toNat_eq
  rw [BitVec.toNat_ofInt, BitVec.toNat_neg]
  omega

theorem ofInt_toNat_sub_one (o : Byte) : BitVec.ofInt 8 ((o.toNat : Int) - 1) = o - 1 := by
  apply BitVec.eq_of_toNat_eq
  rw [BitVec.toNat_ofInt]
  bv_omega

theorem ofNat_toNat_add_one (o : Byte) : BitVec.ofNat 8 (o.toNat + 1) = o + 1 := by
  apply BitVec.eq_of_toNat_eq
  rw [BitVec.toNat_ofNat, BitVec.toNat_add]
  rfl

theorem opNeg_flags (o : Byte) (f : Flags) : (opNeg o f).2.n = (-o).getLsbD 7 ∧ ((opNeg o f).2.z = true ↔ -o = 0) ∧
    ((opNeg o f).2.v = true ↔ -o = 0x80) ∧ ((opNeg o f).2.c = true ↔ -o ≠ 0) ∧ (opNeg o f).2.h = f.h ∧
    (opNeg o f).2.i = f.i := by
  rw [← opNeg_fst o f]
  exact ⟨rfl, decide_eq_true_iff, decide_eq_true_iff, decide_eq_true_iff, rfl, rfl⟩

theorem opCom_flags (o : Byte) (f : Flags) : (opCom o f).2.n = (o ^^^ 0xFF).getLsbD 7 ∧
    ((opCom o f).2.z = true ↔ o = 0xFF) ∧ (opCom o f).2.v = false ∧ (opCom o f).2.c = true ∧ (opCom o f).2.h = f.h ∧
    (opCom o f).2.i = f.i :=
  ⟨rfl, decide_eq_true_iff.trans BitVec.xor_eq_zero_iff, rfl, rfl, rfl, rfl⟩

/-- Settles O25: the negative mod 256, the complement, and the flags of each. -/
theorem negateAndComplement : Obligations.NegateAndComplement := by
  unfold Obligations.NegateAndComplement
  refine ⟨?neg, ⟨rfl, rfl⟩, ⟨rfl, rfl⟩, ?_, ?com, ⟨rfl, rfl⟩, ⟨rfl, rfl⟩, ?_⟩
  case neg =>
    exact modifies_of (op := opNeg) (fun _ => rfl) (fun _ => rfl) (fun _ _ => rfl)
      (fun o f => (opNeg_fst o f).trans (ofInt_neg_toNat o).symm) opNeg_flags
  case com =>
    exact modifies_of (op := opCom) (fun _ => rfl) (fun _ => rfl) (fun _ _ => rfl) (fun _ _ => rfl) opCom_flags
  all_goals exact encodesAddrX_of (fun _ => rfl) (fun _ => rfl)

theorem opInc_flags (o : Byte) (f : Flags) : (opInc o f).2.n = (o + 1).getLsbD 7 ∧ ((opInc o f).2.z = true ↔ o = 0xFF) ∧
    ((opInc o f).2.v = true ↔ o = 0x7F) ∧ (opInc o f).2.c = f.c ∧ (opInc o f).2.h = f.h ∧ (opInc o f).2.i = f.i :=
  ⟨rfl, decide_eq_true_iff.trans (by bv_omega), decide_eq_true_iff, rfl, rfl, rfl⟩

theorem opDec_flags (o : Byte) (f : Flags) : (opDec o f).2.n = (o - 1).getLsbD 7 ∧ ((opDec o f).2.z = true ↔ o = 1) ∧
    ((opDec o f).2.v = true ↔ o = 0x80) ∧ (opDec o f).2.c = f.c ∧ (opDec o f).2.h = f.h ∧ (opDec o f).2.i = f.i :=
  ⟨rfl, decide_eq_true_iff.trans (by bv_omega), decide_eq_true_iff, rfl, rfl, rfl⟩

/-- Settles O27: one more and one less mod 256. -/
theorem stepByOneResultAndFlags : Obligations.StepByOneResultAndFlags := by
  unfold Obligations.StepByOneResultAndFlags
  refine ⟨?inc, ?dec, ⟨rfl, rfl⟩, ⟨rfl, rfl⟩, ?_, ⟨rfl, rfl⟩, ⟨rfl, rfl⟩, ?_⟩
  case inc =>
    exact modifies_of (op := opInc) (fun _ => rfl) (fun _ => rfl) (fun _ _ => rfl)
      (fun o _ => (ofNat_toNat_add_one o).symm) opInc_flags
  case dec =>
    exact modifies_of (op := opDec) (fun _ => rfl) (fun _ => rfl) (fun _ _ => rfl)
      (fun o _ => (ofInt_toNat_sub_one o).symm) opDec_flags
  all_goals exact encodesAddrX_of (fun _ => rfl) (fun _ => rfl)

theorem clearMem_stores (m : AddrX) (s : State) : StoresByte s (clearMem m s) (effAddrX m s) 0 :=
  write8_stores (effAddrX m s) 0 s

/-- CLR of a byte as one record update. -/
theorem clearMem_eq (m : AddrX) (s : State) : clearMem m s = { s with
    cc := { s.cc with n := false, z := true, v := false, c := false }, mem := (clearMem m s).mem,
    bus := s.bus ++ [.write (effAddrX m s) 0] } :=
  congrArg (fun t : State => t.setCc { s.cc with n := false, z := true, v := false, c := false })
    (write8_eq (effAddrX m s) 0 s)

theorem testMem_keepsMemory (m : AddrX) (s : State) : KeepsMemory s (testMem m s) :=
  fun c => read8_peek (effAddrX m s) s c

/-- Settles O28: CLR writes and does not read, TST reads and does not write. -/
theorem clearAndTest : Obligations.ClearAndTest := by
  unfold Obligations.ClearAndTest
  refine ⟨fun s => ⟨_, rfl, accBecomes_set .a 0 s rfl⟩, fun s => ⟨_, rfl, accBecomes_set .b 0 s rfl⟩,
    fun s m => ⟨_, rfl, clearMem_stores m s, clearMem_eq m s⟩,
    fun s => ⟨_, rfl, rfl, rfl, decide_eq_true_iff, rfl, rfl, rfl, rfl⟩,
    fun s => ⟨_, rfl, rfl, rfl, decide_eq_true_iff, rfl, rfl, rfl, rfl⟩,
    fun s m => ⟨_, rfl, rfl, rfl, decide_eq_true_iff, rfl, rfl, rfl, rfl, testMem_keepsMemory m s⟩,
    ⟨rfl, rfl⟩, ⟨rfl, rfl⟩, ?_, ⟨rfl, rfl⟩, ⟨rfl, rfl⟩, ?_⟩
  all_goals exact encodesAddrX_of (fun _ => rfl) (fun _ => rfl)

/-! ### Decimal adjust -/

/-- Settles O26: A takes the two corrections, and the free value is the next one. -/
theorem decimalAdjust : Obligations.DecimalAdjust := by
  unfold Obligations.DecimalAdjust
  refine ⟨fun s => ⟨_, daaLow s.a s.cc, daaHigh s.a s.cc, rfl, rfl, rfl, ?_, rfl, decide_eq_true_iff, rfl,
    opDaa_c s.a (Config.freeBit s.draws) s.cc, rfl⟩, rfl, rfl⟩
  apply BitVec.eq_of_toNat_eq
  rw [BitVec.toNat_ofNat]
  exact opDaa_fst_toNat s.a (Config.freeBit s.draws) s.cc

/-! ### Logic -/

/-- Settles O31: the bitwise operations move their result. -/
theorem logicResultAndFlags : Obligations.LogicResultAndFlags := by
  unfold Obligations.LogicResultAndFlags
  refine ⟨?and, ?eor, ?ora, ?_, ?_, ?_, ?_, ?_, ?_, ?bit, ?_, ?_⟩
  case and =>
    exact combines_of (op := opAnd) (fun _ _ => rfl) (fun _ _ => rfl) (fun _ _ _ => rfl) (fun _ _ f => moveFlags8_move8 _ f)
  case eor =>
    exact combines_of (op := opEor) (fun _ _ => rfl) (fun _ _ => rfl) (fun _ _ _ => rfl) (fun _ _ f => moveFlags8_move8 _ f)
  case ora =>
    exact combines_of (op := opOra) (fun _ _ => rfl) (fun _ _ => rfl) (fun _ _ _ => rfl) (fun _ _ f => moveFlags8_move8 _ f)
  case bit => exact compares_of (op := opAnd) (fun _ _ => rfl) (fun _ _ => rfl) (fun _ _ f => moveFlags8_move8 _ f)
  all_goals exact encodesSrc8_of (fun _ => rfl) (fun _ => rfl)

/-! ### Shifts and rotates -/

theorem shiftFlags_flagsShift (r : Byte) (c : Bool) (f : Flags) : ShiftFlags r c f (flagsShift r c f) :=
  ⟨rfl, decide_eq_true_iff, rfl, by simp, rfl, rfl⟩

theorem rol_value : ∀ (o : Byte) (c : Bool),
    (o.extractLsb' 0 7 ++ BitVec.ofBool c : Byte) = BitVec.ofNat 8 (2 * o.toNat + c.toNat) := by decide

theorem ror_value : ∀ (o : Byte) (c : Bool),
    (BitVec.ofBool c ++ o.extractLsb' 1 7 : Byte) = BitVec.ofNat 8 (o.toNat / 2 + 128 * c.toNat) := by decide

theorem asr_value : ∀ o : Byte,
    (BitVec.ofBool (o.getLsbD 7) ++ o.extractLsb' 1 7 : Byte) = BitVec.ofInt 8 (o.toInt / 2) := by decide

theorem opRol_fst (o : Byte) (f : Flags) : (opRol o f).1 = BitVec.ofNat 8 (2 * o.toNat + f.c.toNat) := rol_value o f.c

theorem opRor_fst (o : Byte) (f : Flags) : (opRor o f).1 = BitVec.ofNat 8 (o.toNat / 2 + 128 * f.c.toNat) :=
  ror_value o f.c

theorem opAsl_fst (o : Byte) (f : Flags) : (opAsl o f).1 = BitVec.ofNat 8 (2 * o.toNat) := rol_value o false

theorem opAsr_fst (o : Byte) (f : Flags) : (opAsr o f).1 = BitVec.ofInt 8 (o.toInt / 2) := asr_value o

theorem opLsr_fst (o : Byte) (f : Flags) : (opLsr o f).1 = BitVec.ofNat 8 (o.toNat / 2) := ror_value o false

/-- Half of a byte has no bit 7. -/
theorem opLsr_n (o : Byte) (f : Flags) : (opLsr o f).2.n = false := by
  change (opLsr o f).1.getLsbD 7 = false
  have := o.isLt
  rw [opLsr_fst, getLsbD_seven, BitVec.toNat_ofNat, decide_eq_false_iff_not]
  omega

/-- Settles O32: the bits of a shift as a number, and V as N xor C. -/
theorem rotatesAndShifts : Obligations.RotatesAndShifts := by
  unfold Obligations.RotatesAndShifts
  refine ⟨?rol, ?ror, ⟨rfl, rfl⟩, ⟨rfl, rfl⟩, ?_, ⟨rfl, rfl⟩, ⟨rfl, rfl⟩, ?_, ?asl, ?asr, ?lsr, ⟨rfl, rfl⟩, ⟨rfl, rfl⟩, ?_,
    ⟨rfl, rfl⟩, ⟨rfl, rfl⟩, ?_, ⟨rfl, rfl⟩, ⟨rfl, rfl⟩, ?_⟩
  case rol =>
    exact modifies_of (op := opRol) (fun _ => rfl) (fun _ => rfl) (fun _ _ => rfl) opRol_fst
      (fun o f => opRol_fst o f ▸ shiftFlags_flagsShift _ _ f)
  case ror =>
    exact modifies_of (op := opRor) (fun _ => rfl) (fun _ => rfl) (fun _ _ => rfl) opRor_fst
      (fun o f => opRor_fst o f ▸ shiftFlags_flagsShift _ _ f)
  case asl =>
    exact modifies_of (op := opAsl) (fun _ => rfl) (fun _ => rfl) (fun _ _ => rfl) opAsl_fst
      (fun o f => opAsl_fst o f ▸ shiftFlags_flagsShift _ _ f)
  case asr =>
    exact modifies_of (op := opAsr) (fun _ => rfl) (fun _ => rfl) (fun _ _ => rfl) opAsr_fst
      (fun o f => opAsr_fst o f ▸ shiftFlags_flagsShift _ _ f)
  case lsr =>
    refine modifies_of (op := opLsr) (fun _ => rfl) (fun _ => rfl) (fun _ _ => rfl) opLsr_fst
      (fun o f => ⟨opLsr_fst o f ▸ shiftFlags_flagsShift _ _ f, opLsr_n o f, ?_⟩)
    change ((opLsr o f).2.n ^^ (opLsr o f).2.c) = _
    rw [opLsr_n, Bool.false_xor]
  all_goals exact encodesAddrX_of (fun _ => rfl) (fun _ => rfl)

/-! ### Load, transfer, store, push, pull -/

/-- Settles O33: the value moved and the flags of a move. -/
theorem loadAndTransferAccumulators : Obligations.LoadAndTransferAccumulators := by
  unfold Obligations.LoadAndTransferAccumulators
  refine ⟨?lda, ?_, ?_, fun s => ⟨_, rfl, accBecomes_set .b s.a s (moveFlags8_move8 s.a s.cc)⟩,
    fun s => ⟨_, rfl, accBecomes_set .a s.b s (moveFlags8_move8 s.b s.cc)⟩, ⟨rfl, rfl⟩, rfl, rfl⟩
  case lda =>
    exact combines_of (op := opLda) (fun _ _ => rfl) (fun _ _ => rfl) (fun _ _ _ => rfl) (fun _ _ f => moveFlags8_move8 _ f)
  all_goals exact encodesSrc8_of (fun _ => rfl) (fun _ => rfl)

theorem storeAcc_stores (r : Acc) (m : Addr) (s : State) : StoresByte s (storeAcc r m s) (effAddr m s) (s.acc r) :=
  write8_stores (effAddr m s) (s.acc r) s

/-- STA as one record update. -/
theorem storeAcc_eq (r : Acc) (m : Addr) (s : State) : storeAcc r m s = { s with
    cc := s.cc.move8 (s.acc r), mem := (storeAcc r m s).mem, bus := s.bus ++ [.write (effAddr m s) (s.acc r)] } :=
  congrArg (fun t : State => t.setCc (s.cc.move8 (s.acc r))) (write8_eq (effAddr m s) (s.acc r) s)

/-- Settles O34: one write, and the flags of a move. -/
theorem storeAccumulator : Obligations.StoreAccumulator := by
  unfold Obligations.StoreAccumulator
  exact ⟨fun s m => ⟨_, rfl, storeAcc_stores .a m s, moveFlags8_move8 s.a s.cc, storeAcc_eq .a m s⟩,
    fun s m => ⟨_, rfl, storeAcc_stores .b m s, moveFlags8_move8 s.b s.cc, storeAcc_eq .b m s⟩,
    encodesAddr_of (fun _ => rfl) (fun _ => rfl), encodesAddr_of (fun _ => rfl) (fun _ => rfl)⟩

/-- A pull is the read above SP, with SP advanced. -/
theorem pull8_eq_read8 (s : State) :
    pull8 s = ((read8 (s.sp + 1) s).1, { (read8 (s.sp + 1) s).2 with sp := s.sp + 1 }) := by
  obtain ⟨hv, ht⟩ := Operands.pull8_reads s
  refine Prod.ext hv ?_
  rw [ht]
  exact congrArg (fun t : State => t.setSp (s.sp + 1)) (read8_eq (s.sp + 1) s).symm

/-- Settles O35: a push is one write at SP, a pull one read above it. -/
theorem pushAndPullAccumulator : Obligations.PushAndPullAccumulator := by
  unfold Obligations.PushAndPullAccumulator
  have hmem : ∀ s, KeepsMemory s (read8 (s.sp + 1) s).2 := fun s c => read8_peek (s.sp + 1) s c
  refine ⟨fun s => ⟨_, rfl, push8_stores s.a s, push8_eq s.a s⟩, fun s => ⟨_, rfl, push8_stores s.b s, push8_eq s.b s⟩,
    fun s => ⟨_, rfl, ?_⟩, fun s => ⟨_, rfl, ?_⟩, ⟨rfl, rfl⟩, ⟨rfl, rfl⟩, ⟨rfl, rfl⟩, rfl, rfl⟩
  · rw [pullAcc, pull8_eq_read8]
    exact ⟨rfl, hmem s, rfl⟩
  · rw [pullAcc, pull8_eq_read8]
    exact ⟨rfl, hmem s, rfl⟩

end Sys2Proof.Proofs.AccMem
end

section
/-! The index register and the stack pointer (44_index_stack.md), and the condition code register (46_ccr.md). -/

namespace Sys2Proof.Proofs.IndexStack

open Sys2Proof.Machine Sys2Proof.Safety Sys2Proof.Proofs.FlagMeaning Sys2Proof.Proofs.Shapes Sys2Proof.Proofs.Operands
  Sys2Proof.Proofs.Boundaries

/-! ### One more and one less mod 2^16 -/

theorem ofInt_toNat_sub_one (v : Word) : BitVec.ofInt 16 ((v.toNat : Int) - 1) = v - 1 := by
  apply BitVec.eq_of_toNat_eq
  rw [BitVec.toNat_ofInt]
  bv_omega

theorem ofNat_toNat_add_one (v : Word) : BitVec.ofNat 16 (v.toNat + 1) = v + 1 := by
  apply BitVec.eq_of_toNat_eq
  rw [BitVec.toNat_ofNat, BitVec.toNat_add]
  rfl

/-- Settles O38: X and SP one up and one down, Z from the new X. -/
theorem stepIndexAndStackPointer : Obligations.StepIndexAndStackPointer := by
  unfold Obligations.StepIndexAndStackPointer
  refine ⟨fun s => ?_, fun s => ?_, fun s => ?_, fun s => ?_, ⟨rfl, rfl⟩, ⟨rfl, rfl⟩, ⟨rfl, rfl⟩, rfl, rfl⟩
  · have hz : decide (s.x - 1 = 0) = decide (s.x = 1) := decide_eq_decide.2 (by bv_omega)
    rw [ofInt_toNat_sub_one, ← hz]
    rfl
  · have hz : decide (s.x + 1 = 0) = decide (s.x = 0xFFFF) := decide_eq_decide.2 (by bv_omega)
    rw [ofNat_toNat_add_one, ← hz]
    rfl
  · rw [ofInt_toNat_sub_one]
    rfl
  · rw [ofNat_toNat_add_one]
    rfl

/-- Settles O41: the transfers with the step by one, which undo each other. -/
theorem transferIndexAndStackPointer : Obligations.TransferIndexAndStackPointer := by
  unfold Obligations.TransferIndexAndStackPointer
  refine ⟨fun s => ?_, fun s => ?_, fun s => ⟨_, _, rfl, rfl, ?_⟩, ⟨rfl, rfl⟩, rfl, rfl⟩
  · rw [ofInt_toNat_sub_one]
    rfl
  · rw [ofNat_toNat_add_one]
    rfl
  · exact sub_add_cancel s.x 1

/-! ### CPX, LDX, LDS, STX, STS -/

/-- Settles O36: the difference of the high bytes with the borrow that the parameter lets in. -/
theorem compareIndexRegister : Obligations.CompareIndexRegister := by
  unfold Obligations.CompareIndexRegister
  refine ⟨fun s m => ⟨_, _, cpxBorrow s.x (readSrc16 m s).1 s.params.cpxHighBorrow,
    cpxHigh s.x (readSrc16 m s).1 s.params.cpxHighBorrow, rfl, rfl, ?_, rfl, decide_eq_true_iff, ?_, ?_, rfl,
    fun c => readSrc16_peek m s c⟩, encodesSrc16_of (fun _ => rfl) (fun _ => rfl)⟩
  · rfl
  · exact flagsCpx_n _ _ _ _
  · exact flagsCpx_v _ _ _ _

/-- Settles O39: the operand in the register, and the flags of a move. -/
theorem loadIndexAndStackPointer : Obligations.LoadIndexAndStackPointer := by
  unfold Obligations.LoadIndexAndStackPointer
  exact ⟨fun s m => ⟨_, rfl, rfl, moveFlags16_move16 _ s.cc, fun c => readSrc16_peek m s c, rfl⟩,
    fun s m => ⟨_, rfl, rfl, moveFlags16_move16 _ s.cc, fun c => readSrc16_peek m s c, rfl⟩,
    encodesSrc16_of (fun _ => rfl) (fun _ => rfl), encodesSrc16_of (fun _ => rfl) (fun _ => rfl)⟩

theorem storeWord_stores (v : Word) (m : Addr) (s : State) :
    StoresBytes s (storeWord v m s) [(effAddr m s, hi8 v), (effAddr m s + 1, lo8 v)] :=
  write16_stores (effAddr m s) v s

/-- STX and STS as one record update. -/
theorem storeWord_eq (v : Word) (m : Addr) (s : State) : storeWord v m s = { s with
    cc := s.cc.move16 v, mem := (storeWord v m s).mem,
    bus := s.bus ++ [.write (effAddr m s) (hi8 v), .write (effAddr m s + 1) (lo8 v)] } :=
  congrArg (fun t : State => t.setCc (s.cc.move16 v)) (write16_eq (effAddr m s) v s)

/-- Settles O40: one 16-bit write, and the flags of a move. -/
theorem storeIndexAndStackPointer : Obligations.StoreIndexAndStackPointer := by
  unfold Obligations.StoreIndexAndStackPointer
  exact ⟨fun s m => ⟨_, rfl, storeWord_stores s.x m s, moveFlags16_move16 s.x s.cc, storeWord_eq s.x m s⟩,
    fun s m => ⟨_, rfl, storeWord_stores s.sp m s, moveFlags16_move16 s.sp s.cc, storeWord_eq s.sp m s⟩,
    encodesAddr_of (fun _ => rfl) (fun _ => rfl), encodesAddr_of (fun _ => rfl) (fun _ => rfl)⟩

/-! ### The condition code register -/

/-- Settles O53: one flag each, and I masks IRQ. -/
theorem oneFlagInstructions : Obligations.OneFlagInstructions := by
  unfold Obligations.OneFlagInstructions
  refine ⟨fun _ => rfl, fun _ => rfl, fun _ => rfl, fun _ => rfl, fun s t h => ?_, fun _ => rfl, ⟨rfl, rfl⟩, ⟨rfl, rfl⟩,
    ⟨rfl, rfl⟩, ⟨rfl, rfl⟩, rfl, rfl⟩
  cases h
  exact irqAccepted_eq_false_iff.2 (.inr (.inl rfl))

/-- CLI and TAP as one record update: the holdoff is set on a change of I from 1 to 0 under I_CLEAR_DELAY. -/
theorem writeFlagsHoldoff_eq (f : Flags) (s : State) : writeFlagsHoldoff f s =
    { s with cc := f, irqHoldoff := s.irqHoldoff || (s.params.iClearDelay && s.cc.i && !f.i) } := by
  have hcond : (s.params.iClearDelay = true ∧ s.cc.i = true ∧ f.i = false) ↔
      (s.params.iClearDelay && s.cc.i && !f.i) = true := by simp [and_assoc]
  unfold writeFlagsHoldoff
  simp only [hcond]
  cases s.params.iClearDelay && s.cc.i && !f.i
  · rw [Bool.or_false]
    rfl
  · rw [Bool.or_true]
    rfl

/-- CLI as one record update. -/
theorem exec_cli (s : State) : exec .cli s = .next { s with
    cc := { s.cc with i := false }, irqHoldoff := s.irqHoldoff || (s.params.iClearDelay && s.cc.i) } := by
  refine congrArg Host.Outcome.next ((writeFlagsHoldoff_eq _ s).trans ?_)
  simp only [Bool.not_false, Bool.and_true]

/-- Settles O54: IRQ after CLI is held off exactly when the holdoff is set. -/
theorem clearInterruptMask : Obligations.ClearInterruptMask := by
  unfold Obligations.ClearInterruptMask
  refine ⟨exec_cli, fun s t h hoff hlow => ?_, rfl, rfl⟩
  rw [exec_cli] at h
  cases h
  simp [irqAccepted, hoff, hlow, imp_iff_not_or]

/-- Settles O55: the six flags of a byte, the byte of the six flags, and that loading undoes storing. -/
theorem transferWithConditionCodes : Obligations.TransferWithConditionCodes := by
  unfold Obligations.TransferWithConditionCodes
  refine ⟨fun s => congrArg Host.Outcome.next (writeFlagsHoldoff_eq _ s), fun s => ⟨_, rfl, rfl, toByte_toNat s.cc⟩,
    fun s => ⟨_, _, rfl, rfl, ?_⟩, ⟨rfl, rfl⟩, rfl, rfl⟩
  rw [writeFlagsHoldoff_eq]
  exact ofByte_toByte s.cc

end Sys2Proof.Proofs.IndexStack
end

section
/-! Branches and jumps (45_branch_jump.md sections 1 and 2), and what a branch means after a comparison. -/

namespace Sys2Proof.Proofs.Branching

open Sys2Proof.Machine Sys2Proof.Safety Sys2Proof.Proofs.FlagMeaning Sys2Proof.Proofs.Shapes Sys2Proof.Proofs.Operands
  Sys2Proof.Proofs.AccMem

/-- A branch as one record update. -/
theorem branchIf_eq (cond : Bool) (rel : Byte) (s : State) :
    branchIf cond rel s = { s with pc := if cond = true then s.pc + rel.signExtend 16 else s.pc } := by
  cases cond <;> rfl

/-- A branch whose condition, over all values of the flags, holds for the listed values of N Z V C. -/
theorem branches_of {f : Byte → Instr} {taken : List Nat} (cond : Flags → Bool)
    (hexec : ∀ rel s, exec (f rel) s = .next (branchIf (cond s.cc) rel s))
    (hcond : ∀ h i n z v c : Bool, cond ⟨h, i, n, z, v, c⟩ = decide (nzvc ⟨h, i, n, z, v, c⟩ ∈ taken)) :
    Branches f taken := by
  intro s rel
  have hs : cond s.cc = decide (nzvc s.cc ∈ taken) := hcond _ _ _ _ _ _
  rw [hexec, branchIf_eq, hs]
  simp only [decide_eq_true_eq]

/-- Settles O42: each condition against its list of N Z V C. -/
theorem branchesOnOneTest : Obligations.BranchesOnOneTest := by
  unfold Obligations.BranchesOnOneTest
  refine ⟨fun s rel => rfl, ?_, ?_, ?_, ?_, ?_, ?_, ?_, ?_, ?_, ?_, fun _ => ⟨rfl, rfl⟩, fun _ => ⟨rfl, rfl⟩,
    fun _ => ⟨rfl, rfl⟩, fun _ => ⟨rfl, rfl⟩, fun _ => ⟨rfl, rfl⟩, fun _ => ⟨rfl, rfl⟩, fun _ => ⟨rfl, rfl⟩,
    fun _ => ⟨rfl, rfl⟩, fun _ => ⟨rfl, rfl⟩, fun _ => ⟨rfl, rfl⟩, fun _ => ⟨rfl, rfl⟩⟩
  · exact branches_of (fun f => !f.c) (fun _ _ => rfl) (by decide)
  · exact branches_of (fun f => f.c) (fun _ _ => rfl) (by decide)
  · exact branches_of (fun f => f.z) (fun _ _ => rfl) (by decide)
  · exact branches_of (fun f => !(f.c || f.z)) (fun _ _ => rfl) (by decide)
  · exact branches_of (fun f => f.c || f.z) (fun _ _ => rfl) (by decide)
  · exact branches_of (fun f => f.n) (fun _ _ => rfl) (by decide)
  · exact branches_of (fun f => !f.z) (fun _ _ => rfl) (by decide)
  · exact branches_of (fun f => !f.v) (fun _ _ => rfl) (by decide)
  · exact branches_of (fun f => f.v) (fun _ _ => rfl) (by decide)
  · exact branches_of (fun f => !f.n) (fun _ _ => rfl) (by decide)

/-- Settles O43: each condition against its list of N Z V C. -/
theorem branchesOnSignedOrder : Obligations.BranchesOnSignedOrder := by
  unfold Obligations.BranchesOnSignedOrder
  refine ⟨?_, ?_, ?_, ?_, fun _ => ⟨rfl, rfl⟩, fun _ => ⟨rfl, rfl⟩, fun _ => ⟨rfl, rfl⟩, fun _ => ⟨rfl, rfl⟩⟩
  · exact branches_of (fun f => !(f.n ^^ f.v)) (fun _ _ => rfl) (by decide)
  · exact branches_of (fun f => !(f.z || (f.n ^^ f.v))) (fun _ _ => rfl) (by decide)
  · exact branches_of (fun f => f.z || (f.n ^^ f.v)) (fun _ _ => rfl) (by decide)
  · exact branches_of (fun f => f.n ^^ f.v) (fun _ _ => rfl) (by decide)

/-! ### After a comparison -/

/-- The flags are those of comparing `x` with `y`. -/
def Compared (x y : Byte) (g : Flags) : Prop := ∃ f, g = (opSub x y f).2

section
variable {x y : Byte} {g : Flags} (h : Compared x y g)
include h

theorem Compared.z : g.z = decide (x = y) := by
  obtain ⟨f, rfl⟩ := h
  change decide ((opSub x y f).1 = 0) = _
  rw [opSub_fst]
  exact decide_eq_decide.2 sub_eq_zero

theorem Compared.c : g.c = decide (x.toNat < y.toNat) := by
  obtain ⟨f, rfl⟩ := h
  exact Bool.eq_iff_iff.2 ((sub8_c_iff x y false f).trans decide_eq_true_iff.symm)

/-- N xor V is the sign of the exact difference, also when the difference does not fit a byte. -/
theorem Compared.n_xor_v : (g.n ^^ g.v) = decide (x.toInt < y.toInt) := by
  obtain ⟨f, rfl⟩ := h
  have hr := sub8_fst_toNat x y false f
  have hx := toInt_byte x
  have hy := toInt_byte y
  have hb : (false.toNat : Int) = 0 := rfl
  rw [hb] at hr
  have hn : (opSub x y f).2.n = decide (128 ≤ (sub8 x y false f).1.toNat) := getLsbD_seven _
  have hv : (opSub x y f).2.v = decide ¬ (-128 ≤ x.toInt - y.toInt ∧ x.toInt - y.toInt ≤ 127) := by
    refine Bool.eq_iff_iff.2 (((sub8_v_iff x y false f).trans ?_).trans decide_eq_true_iff.symm)
    simp
  rw [hn, hv, Bool.eq_iff_iff, Bool.xor_iff_ne, ne_eq, decide_eq_decide, decide_eq_true_iff]
  omega

end

/-- CMPA, CMPB and CBA leave the flags of a comparison. -/
theorem compared_of_exec {s t : State} {x y : Byte}
    (h : (∃ m, exec (.cmpa m) s = .next t ∧ x = s.a ∧ y = (readSrc8 m s).1) ∨
      (∃ m, exec (.cmpb m) s = .next t ∧ x = s.b ∧ y = (readSrc8 m s).1) ∨
      (exec .cba s = .next t ∧ x = s.a ∧ y = s.b)) : Compared x y t.cc := by
  rcases h with ⟨m, ht, rfl, rfl⟩ | ⟨m, ht, rfl, rfl⟩ | ⟨ht, rfl, rfl⟩
  all_goals
    cases ht
    exact ⟨s.cc, rfl⟩

/-- Settles O44: Z is equality, C the unsigned and N xor V the signed order, and each branch tests one of them. -/
theorem branchesAfterCompareOrderTheOperands : Obligations.BranchesAfterCompareOrderTheOperands := by
  unfold Obligations.BranchesAfterCompareOrderTheOperands
  intro s t x y rel hexec goes
  have h := compared_of_exec hexec
  have taken : ∀ cond b : Bool, cond = b → .next (branchIf cond rel t) = goes b := by
    rintro cond _ rfl
    exact congrArg _ (branchIf_eq cond rel t)
  have hz := h.z
  have hc := h.c
  have hnv := h.n_xor_v
  have hxy : x = y ↔ x.toNat = y.toNat := BitVec.toNat_inj.symm
  have hxy' : x = y ↔ x.toInt = y.toInt := BitVec.toInt_inj.symm
  refine ⟨taken _ _ hz, taken _ _ ?_, taken _ _ ?_, taken _ _ ?_, taken _ _ ?_, taken _ _ hc, taken _ _ ?_, taken _ _ ?_,
    taken _ _ hnv, taken _ _ ?_⟩
  · rw [hz, decide_not]
  · rw [hc, hz, ← Bool.decide_or, ← decide_not, decide_eq_decide, hxy]
    omega
  · rw [hc, hz, ← Bool.decide_or, decide_eq_decide, hxy]
    omega
  · rw [hc, ← decide_not, decide_eq_decide]
    omega
  · rw [hz, hnv, ← Bool.decide_or, ← decide_not, decide_eq_decide, hxy']
    omega
  · rw [hnv, ← decide_not, decide_eq_decide]
    omega
  · rw [hz, hnv, ← Bool.decide_or, decide_eq_decide, hxy']
    omega

/-! ### Jump and calls -/

/-- Settles O46: PC takes the effective address. -/
theorem jumpGoesToTheEffectiveAddress : Obligations.JumpGoesToTheEffectiveAddress := by
  unfold Obligations.JumpGoesToTheEffectiveAddress
  refine ⟨fun _ _ => rfl, fun s h l => ?_, encodesAddrX_of (fun _ => rfl) (fun _ => rfl)⟩
  rw [← wordOf_toNat, BitVec.ofNat_toNat, BitVec.setWidth_eq]
  rfl

theorem call_stores (target : Word) (s : State) :
    StoresBytes s (call target s) [(s.sp, lo8 s.pc), (s.sp - 1, hi8 s.pc)] :=
  push16_stores s.pc s

/-- A call as one record update. -/
theorem call_eq (target : Word) (s : State) : call target s = { s with
    pc := target, sp := s.sp - 2, mem := (call target s).mem,
    bus := s.bus ++ [.write s.sp (lo8 s.pc), .write (s.sp - 1) (hi8 s.pc)] } :=
  congrArg (fun t : State => t.setPc target) (push16_eq s.pc s)

/-- Settles O45: one 16-bit push, and PC takes the target. -/
theorem callsPushTheReturnAddress : Obligations.CallsPushTheReturnAddress := by
  unfold Obligations.CallsPushTheReturnAddress
  exact ⟨fun s rel => ⟨_, rfl, call_stores _ s, call_eq _ s⟩, fun s m => ⟨_, rfl, call_stores _ s, call_eq _ s⟩,
    fun _ => ⟨rfl, rfl⟩, encodesAddrX_of (fun _ => rfl) (fun _ => rfl)⟩

end Sys2Proof.Proofs.Branching
end

section
/-! Stack frames (20_memory.md R58, R59; 45_branch_jump.md R225 to R232; 60_exceptions.md R264, R265): pulling is reading
upward from SP + 1, and what SWI, WAI and the calls store is read back by RTI and RTS. -/

namespace Sys2Proof.Proofs.Frames

open Sys2Proof.Machine Sys2Proof.Safety Sys2Proof.Proofs.Effects Sys2Proof.Proofs.Operands
  Sys2Proof.Proofs.Branching

/-! ### Pulls as a run of reads -/

/-- The processor registers of `r` over the rest of `s`: a read does not see them. -/
def withRegisters (s r : State) : State := { s with a := r.a, b := r.b, x := r.x, sp := r.sp, pc := r.pc, cc := r.cc }

theorem read8_withRegisters (a : Word) (s r : State) :
    read8 a (withRegisters s r) = ((read8 a s).1, withRegisters (read8 a s).2 r) := by
  have hk : (withRegisters s r).kindAt a = s.kindAt a := rfl
  unfold read8
  rw [hk]
  cases s.kindAt a <;> rfl

theorem pull8_withRegisters (s r : State) : pull8 (withRegisters s r) =
    ((read8 (r.sp + 1) s).1, withRegisters (read8 (r.sp + 1) s).2 (r.setSp (r.sp + 1))) :=
  read8_withRegisters (r.sp + 1) s (r.setSp (r.sp + 1))

theorem setA_withRegisters (s r : State) (v : Byte) : (withRegisters s r).setA v = withRegisters s (r.setA v) := rfl
theorem setB_withRegisters (s r : State) (v : Byte) : (withRegisters s r).setB v = withRegisters s (r.setB v) := rfl
theorem setX_withRegisters (s r : State) (v : Word) : (withRegisters s r).setX v = withRegisters s (r.setX v) := rfl
theorem setPc_withRegisters (s r : State) (v : Word) : (withRegisters s r).setPc v = withRegisters s (r.setPc v) := rfl
theorem setCc_withRegisters (s r : State) (v : Flags) : (withRegisters s r).setCc v = withRegisters s (r.setCc v) := rfl

/-- RTS as a run of two reads. -/
theorem returnFromCall_eq {s : State} {h l : Byte} (hbytes : (readRun 2 (s.sp + 1) s).1 = [h, l]) :
    returnFromCall s = { (readRun 2 (s.sp + 1) s).2 with pc := wordOf h l, sp := s.sp + 2 } := by
  have hsp : s.sp + 1 + 1 = s.sp + 2 := by bv_omega
  have hrun : returnFromCall (withRegisters s s) =
      withRegisters (readRun 2 (s.sp + 1) s).2 ((s.setSp (s.sp + 2)).setPc (wordOf h l)) := by
    simp only [readRun, List.cons.injEq, and_true] at hbytes
    obtain ⟨rfl, rfl⟩ := hbytes
    simp only [returnFromCall, pull16, pull8_withRegisters, setPc_withRegisters, State.setSp_sp, ← hsp]
    rfl
  refine hrun.trans ?_
  rw [readRun_eq]
  rfl

/-- RTI as a run of seven reads. -/
theorem returnFromInterrupt_eq {s : State} {ccr b a xh xl ph pl : Byte}
    (hbytes : (readRun 7 (s.sp + 1) s).1 = [ccr, b, a, xh, xl, ph, pl]) :
    returnFromInterrupt s = { (readRun 7 (s.sp + 1) s).2 with
      cc := Flags.ofByte ccr, b := b, a := a, x := wordOf xh xl, pc := wordOf ph pl, sp := s.sp + 7 } := by
  have hsp : s.sp + 1 + 1 + 1 + 1 + 1 + 1 + 1 = s.sp + 7 := by bv_omega
  have hrun : returnFromInterrupt (withRegisters s s) = withRegisters (readRun 7 (s.sp + 1) s).2
      { s with cc := Flags.ofByte ccr, b := b, a := a, x := wordOf xh xl, pc := wordOf ph pl, sp := s.sp + 7 } := by
    simp only [readRun, List.cons.injEq, and_true] at hbytes
    obtain ⟨rfl, rfl, rfl, rfl, rfl, rfl, rfl⟩ := hbytes
    simp only [readRun, returnFromInterrupt, pull16, pull8_withRegisters, setA_withRegisters, setB_withRegisters,
      setX_withRegisters, setPc_withRegisters, setCc_withRegisters, State.setSp_sp, State.setA_sp, State.setB_sp,
      State.setX_sp, State.setCc_sp, ← hsp]
    rfl
  refine hrun.trans ?_
  rw [readRun_eq]
  rfl

@[simp] theorem readRun_mem (n : Nat) (a : Word) (s : State) : (readRun n a s).2.mem = s.mem := by
  rw [readRun_eq]

theorem keepsMemory_of_mem {s t : State} (h : t.mem = s.mem) : KeepsMemory s t := fun c => by simp only [State.peek, h]

theorem add_one_add_ofNat (a : Word) (k : Nat) : a + 1 + BitVec.ofNat 16 k = a + BitVec.ofNat 16 (k + 1) := by
  rw [BitVec.ofNat_add, add_comm (BitVec.ofNat 16 k), ← add_assoc]
  rfl

/-- What stands at `n + 1` ascending addresses is what stands at the first and at the `n` after it. -/
theorem map_range_succ {α : Type} (f : Word → α) (n : Nat) (a : Word) :
    (List.range (n + 1)).map (fun k => f (a + BitVec.ofNat 16 k)) =
      f a :: (List.range n).map fun k => f (a + 1 + BitVec.ofNat 16 k) := by
  simp only [List.range_succ_eq_map, List.map_cons, List.map_map, Function.comp_def, add_one_add_ofNat]
  exact congrArg (fun w => f w :: _) (BitVec.add_zero a)

/-- A run of reads from RAM and ROM gives the bytes held. -/
theorem readRun_held (n : Nat) (a : Word) (s : State) (h : ∀ k, k < n → Held s (a + BitVec.ofNat 16 k)) :
    (readRun n a s).1 = (List.range n).map (fun k => s.peek (a + BitVec.ofNat 16 k)) ∧
      (readRun n a s).2 = { s with bus := s.bus ++ heldReads n a s } := by
  induction n generalizing a s with
  | zero => exact ⟨rfl, by simp [readRun, heldReads]⟩
  | succ n ih =>
    have h0 := read8_held_eq (s := s) (a := a) (by simpa using h 0 (by omega))
    obtain ⟨hbytes, hstate⟩ := ih (a + 1) { s with bus := s.bus ++ [.read a (s.peek a)] } fun k hkn => by
      rw [add_one_add_ofNat]
      exact h (k + 1) (by omega)
    rw [readRun, h0]
    constructor
    · rw [map_range_succ s.peek]
      exact congrArg (List.cons _) hbytes
    · rw [heldReads, map_range_succ fun c => BusAccess.read c (s.peek c)]
      exact hstate.trans (congrArg s.setBus (List.append_assoc s.bus [.read a (s.peek a)] _))

theorem readRun_two (a : Word) (s : State) : ∃ h l, (readRun 2 a s).1 = [h, l] := ⟨_, _, rfl⟩

theorem readRun_seven (a : Word) (s : State) :
    ∃ ccr b a' xh xl ph pl, (readRun 7 a s).1 = [ccr, b, a', xh, xl, ph, pl] := ⟨_, _, _, _, _, _, _, rfl⟩

/-- Settles O47: the runs of two and of seven reads from SP + 1. -/
theorem returnsPullTheStack : Obligations.ReturnsPullTheStack := by
  unfold Obligations.ReturnsPullTheStack
  refine ⟨fun s => ?_, fun s => ?_, readRun_held, ⟨rfl, rfl⟩, rfl, rfl⟩
  · obtain ⟨h, l, hbytes⟩ := readRun_two (s.sp + 1) s
    have ht := returnFromCall_eq hbytes
    refine ⟨_, rfl, h, l, hbytes, ?_, ht⟩
    rw [ht]
    exact keepsMemory_of_mem (by simp only [readRun_mem])
  · obtain ⟨ccr, b, a, xh, xl, ph, pl, hbytes⟩ := readRun_seven (s.sp + 1) s
    have ht := returnFromInterrupt_eq hbytes
    refine ⟨_, rfl, ccr, b, a, xh, xl, ph, pl, hbytes, ?_, ht⟩
    rw [ht]
    exact keepsMemory_of_mem (by simp only [readRun_mem])

/-! ### SWI and WAI -/

/-- SWI as one record update. -/
theorem enterThrough_stackAll_eq (vector : Word) (s : State) : enterThrough vector (stackAll s) = { s with
    sp := s.sp - 7, mem := (stackAll s).mem, cc := { s.cc with i := true }, pc := (read16 vector (stackAll s)).1,
    bus := s.bus ++ ((frameBytes s).map (fun e => .write e.1 e.2) ++ vectorReads vector (stackAll s)),
    draws := (read16 vector (stackAll s)).2.draws } := by
  rw [enterThrough_eq]
  ext1 <;> simp [stackAll_bus]

/-- Settles O48: the frame of R265, then the entry through the vector in the state that holds it. -/
theorem softwareInterruptStacksAndJumps : Obligations.SoftwareInterruptStacksAndJumps := by
  unfold Obligations.SoftwareInterruptStacksAndJumps
  refine ⟨fun s => ⟨_, rfl, ?_⟩, rfl, rfl⟩
  rw [enterThrough_stackAll_eq]
  refine ⟨storesBytes_congr (stackAll_stores s) (by dsimp only), rfl, rfl, rfl, fun h h' => ?_, rfl, rfl, rfl,
    ⟨rfl, rfl, rfl, rfl, rfl, rfl, rfl, rfl⟩, rfl⟩
  simpa [State.peek] using
    read16_held (s := stackAll s) (by simpa [Held] using h) (by simpa [Held] using h')

theorem wai_stores (s : State) : StoresBytes s ((stackAll s).setWaiting true) (frameBytes s) :=
  storesBytes_congr (stackAll_stores s) (by simp)

/-- Settles O49: stacking, and the wait. -/
theorem waitStacksTheFrame : Obligations.WaitStacksTheFrame := by
  unfold Obligations.WaitStacksTheFrame
  exact ⟨fun s => ⟨_, rfl, wai_stores s, congrArg (fun t : State => t.setWaiting true) (stackAll_eq s)⟩, rfl, rfl⟩

/-! ### Pulling what was pushed -/

/-- The entries lie at ascending addresses from `a` on. -/
def Ascending (a : Word) : List (Word × Byte) → Prop
  | [] => True
  | e :: l => e.1 = a ∧ Ascending (a + 1) l

/-- A run of reads over entries that memory holds gives their bytes. -/
theorem readRun_ascending {l : List (Word × Byte)} {a : Word} {t : State} (ha : Ascending a l)
    (hheld : ∀ e ∈ l, Held t e.1) (hpeek : ∀ e ∈ l, t.peek e.1 = e.2) : (readRun l.length a t).1 = l.map Prod.snd := by
  induction l generalizing a t with
  | nil => rfl
  | cons e l ih =>
    obtain ⟨rfl, hl⟩ := ha
    obtain ⟨he, hheld⟩ := List.forall_mem_cons.1 hheld
    obtain ⟨hv, hpeek⟩ := List.forall_mem_cons.1 hpeek
    have hrest := ih (t := (read8 e.1 t).2) hl (by simpa only [Held, read8_kindAt] using hheld)
      (by simpa only [read8_peek] using hpeek)
    simp only [List.length_cons, readRun, hrest, read8_held he, hv, List.map_cons]

/-- The frame of R265, read upward. -/
theorem frameBytes_reverse_ascending (s : State) : Ascending (s.sp - 7 + 1) (frameBytes s).reverse := by
  change Ascending _ [(s.sp - 6, s.cc.toByte), (s.sp - 5, s.b), (s.sp - 4, s.a), (s.sp - 3, hi8 s.x), (s.sp - 2, lo8 s.x),
    (s.sp - 1, hi8 s.pc), (s.sp, lo8 s.pc)]
  simp only [Ascending, and_true]
  bv_omega

/-- RTI from a frame that memory holds. -/
theorem returnFromInterrupt_frame {s t : State} (hsp : t.sp = s.sp - 7) (hheld : ∀ e ∈ frameBytes s, Held t e.1)
    (hpeek : ∀ e ∈ frameBytes s, t.peek e.1 = e.2) :
    returnFromInterrupt t = { (readRun 7 (t.sp + 1) t).2 with
      cc := s.cc, b := s.b, a := s.a, x := s.x, pc := s.pc, sp := s.sp } := by
  have hbytes : (readRun 7 (t.sp + 1) t).1 = (frameBytes s).reverse.map Prod.snd := by
    rw [hsp]
    exact readRun_ascending (frameBytes_reverse_ascending s) (fun e he => hheld e (List.mem_reverse.1 he))
      (fun e he => hpeek e (List.mem_reverse.1 he))
  have hup : t.sp + 7 = s.sp := by
    rw [hsp]
    exact sub_add_cancel s.sp 7
  rw [returnFromInterrupt_eq hbytes, ofByte_toByte, wordOf_hi8_lo8, wordOf_hi8_lo8, hup]

/-- The two bytes of a return address, in the order they are pushed (20_memory.md R59). -/
def returnBytes (s : State) : List (Word × Byte) := [(s.sp, lo8 s.pc), (s.sp - 1, hi8 s.pc)]

/-- The return address, read upward. -/
theorem returnBytes_reverse_ascending (s : State) : Ascending (s.sp - 2 + 1) (returnBytes s).reverse := by
  change Ascending _ [(s.sp - 1, hi8 s.pc), (s.sp, lo8 s.pc)]
  simp only [Ascending, and_true]
  bv_omega

/-- RTS from a return address that memory holds. -/
theorem returnFromCall_returnBytes {s t : State} (hsp : t.sp = s.sp - 2) (hheld : ∀ e ∈ returnBytes s, Held t e.1)
    (hpeek : ∀ e ∈ returnBytes s, t.peek e.1 = e.2) :
    returnFromCall t = { (readRun 2 (t.sp + 1) t).2 with pc := s.pc, sp := s.sp } := by
  have hbytes : (readRun 2 (t.sp + 1) t).1 = (returnBytes s).reverse.map Prod.snd := by
    rw [hsp]
    exact readRun_ascending (returnBytes_reverse_ascending s) (fun e he => hheld e (List.mem_reverse.1 he))
      (fun e he => hpeek e (List.mem_reverse.1 he))
  have hup : t.sp + 2 = s.sp := by
    rw [hsp]
    exact sub_add_cancel s.sp 2
  rw [returnFromCall_eq hbytes, wordOf_hi8_lo8, hup]

/-- Settles O50: the seven bytes that SWI stored are those that RTI reads. -/
theorem rtiUndoesSwi : Obligations.RtiUndoesSwi := by
  unfold Obligations.RtiUndoesSwi
  intro s hram
  obtain ⟨t, ht, hstores, hsp, -⟩ := softwareInterruptStacksAndJumps.1 s
  have hkind : ∀ c, t.kindAt c = s.kindAt c := fun c => by simp only [State.kindAt, (Effect.of_exec ht).params]
  have hrti := returnFromInterrupt_frame hsp (fun e he => .inl (hkind e.1 ▸ hram e he))
    (fun e he => hstores.1 e he (hram e he))
  refine ⟨t, _, ht, rfl, ?_⟩
  rw [hrti]
  exact ⟨rfl, rfl, rfl, rfl, rfl, rfl⟩

/-- JSR and BSR are calls. -/
theorem eq_call_of_exec {s t : State} {m : AddrX} {rel : Byte}
    (h : exec (.jsr m) s = .next t ∨ exec (.bsr rel) s = .next t) : ∃ target, t = call target s := by
  rcases h with h | h
  · exact ⟨_, (Host.Outcome.next.inj h).symm⟩
  · exact ⟨_, (Host.Outcome.next.inj h).symm⟩

/-- Settles O51: the two bytes that the call stored are those that RTS reads, and a call keeps the other registers. -/
theorem rtsUndoesTheCall : Obligations.RtsUndoesTheCall := by
  unfold Obligations.RtsUndoesTheCall
  intro s t m rel hram hram' hcall
  obtain ⟨target, rfl⟩ := eq_call_of_exec hcall
  have hsp : (call target s).sp = s.sp - 2 := by rw [call_eq]
  have hkind : ∀ c, (call target s).kindAt c = s.kindAt c := fun c => by rw [call_eq]; rfl
  have hbytes : ∀ e ∈ returnBytes s, s.kindAt e.1 = .ram := by
    rw [returnBytes, List.forall_mem_cons, List.forall_mem_singleton]
    exact ⟨hram, hram'⟩
  have hrts := returnFromCall_returnBytes hsp (fun e he => .inl (hkind e.1 ▸ hbytes e he))
    (fun e he => (call_stores target s).1 e he (hbytes e he))
  refine ⟨_, rfl, ?_⟩
  rw [hrts, readRun_eq, call_eq]
  exact ⟨rfl, rfl, rfl, rfl, rfl, rfl⟩

end Sys2Proof.Proofs.Frames
end

section
/-! Which instructions write the interrupt mask and the half carry (10_state.md R26, R27). -/

namespace Sys2Proof.Proofs.MaskAndHalfCarry

open Sys2Proof.Machine Sys2Proof.Proofs.Branching Sys2Proof.Proofs.Frames Sys2Proof.Proofs.IndexStack

/-- An instruction that leaves I is none of those that clear or set it. -/
theorem claim_of_mask_kept {s t : State} {clears sets writesH : Prop} (hi : t.cc.i = s.cc.i)
    (hh : t.cc.h ≠ s.cc.h → writesH) : (s.cc.i = true → t.cc.i = false → clears) ∧
      (s.cc.i = false → t.cc.i = true → sets) ∧ (t.cc.h ≠ s.cc.h → writesH) :=
  ⟨fun h h' => absurd (hi.symm.trans h') (by simp [h]), fun h h' => absurd (hi.symm.trans h') (by simp [h]), hh⟩

/-- An instruction that leaves I and H. -/
theorem claim_of_kept {s t : State} {clears sets writesH : Prop} (h : t.cc.i = s.cc.i ∧ t.cc.h = s.cc.h) :
    (s.cc.i = true → t.cc.i = false → clears) ∧ (s.cc.i = false → t.cc.i = true → sets) ∧
      (t.cc.h ≠ s.cc.h → writesH) :=
  claim_of_mask_kept h.1 fun hne => absurd h.2 hne

/-- An instruction whose last act is to write flags that are as before in I and H. -/
theorem kept_of_setCc {s t : State} {g : Flags} (hi : g.i = s.cc.i) (hh : g.h = s.cc.h) :
    (t.setCc g).cc.i = s.cc.i ∧ (t.setCc g).cc.h = s.cc.h := ⟨hi, hh⟩

/-- An instruction that writes no flag. -/
theorem kept_of_cc {s t : State} (h : t.cc = s.cc) : t.cc.i = s.cc.i ∧ t.cc.h = s.cc.h :=
  ⟨congrArg Flags.i h, congrArg Flags.h h⟩

/-- Settles O59: instruction by instruction, those that write flags write only their own. -/
theorem fewInstructionsWriteTheMaskAndHalfCarry : Obligations.FewInstructionsWriteTheMaskAndHalfCarry := by
  unfold Obligations.FewInstructionsWriteTheMaskAndHalfCarry
  intro i s t h
  cases i
  case unassigned op => cases h
  case rti => exact ⟨fun _ _ => .inr (.inr rfl), fun _ _ => .inr (.inr (.inr rfl)), fun _ => .inr (.inr (.inr rfl))⟩
  case tap => exact ⟨fun _ _ => .inr (.inl rfl), fun _ _ => .inr (.inr (.inl rfl)), fun _ => .inr (.inr (.inl rfl))⟩
  all_goals obtain rfl := Host.Outcome.next.inj h
  case cli =>
    rw [writeFlagsHoldoff_eq]
    exact ⟨fun _ _ => .inl rfl, fun _ h' => absurd h' (by simp), fun hne => absurd rfl hne⟩
  case sei => exact ⟨fun _ h' => absurd h' (by simp), fun _ _ => .inl rfl, fun hne => absurd rfl hne⟩
  case swi =>
    rw [enterThrough_stackAll_eq]
    exact ⟨fun _ h' => absurd h' (by simp), fun _ _ => .inr (.inl rfl), fun hne => absurd rfl hne⟩
  case adda m => exact claim_of_mask_kept rfl fun _ => .inl ⟨m, .inl rfl⟩
  case addb m => exact claim_of_mask_kept rfl fun _ => .inl ⟨m, .inr (.inl rfl)⟩
  case adca m => exact claim_of_mask_kept rfl fun _ => .inl ⟨m, .inr (.inr (.inl rfl))⟩
  case adcb m => exact claim_of_mask_kept rfl fun _ => .inl ⟨m, .inr (.inr (.inr rfl))⟩
  case aba => exact claim_of_mask_kept rfl fun _ => .inr (.inl rfl)
  case suba m | sbca m | cmpa m | anda m | bita m | ldaa m | eora m | oraa m | subb m | sbcb m | cmpb m | andb m | bitb m
      | ldab m | eorb m | orab m | cpx m | lds m | ldx m | staa m | stab m | sts m | stx m | neg m | com m | lsr m | ror m
      | asr m | asl m | rol m | dec m | inc m | tst m | clr m =>
    exact claim_of_kept (kept_of_setCc rfl rfl)
  case nega | coma | lsra | rora | asra | asla | rola | deca | inca | tsta | clra | negb | comb | lsrb | rorb | asrb | aslb
      | rolb | decb | incb | tstb | clrb | sba | cba | tab | tba | daa | inx | dex | clc | clv | sec | sev =>
    exact claim_of_kept (kept_of_setCc rfl rfl)
  case nop | tpa | tsx | txs | ins | des => exact claim_of_kept (kept_of_cc rfl)
  case jmp m => exact claim_of_kept (kept_of_cc rfl)
  case psha | pshb => exact claim_of_kept (kept_of_cc (by simp))
  case pula | pulb => exact claim_of_kept (kept_of_cc (by simp [pullAcc]))
  case rts => exact claim_of_kept (kept_of_cc (by simp [returnFromCall]))
  case wai => exact claim_of_kept (kept_of_cc (by simp))
  case bsr rel => exact claim_of_kept (kept_of_cc (by simp [call]))
  case jsr m => exact claim_of_kept (kept_of_cc (by simp [call]))
  -- the fifteen branches
  all_goals
    rw [branchIf_eq]
    exact claim_of_kept ⟨rfl, rfl⟩

end Sys2Proof.Proofs.MaskAndHalfCarry
end
